-- ==== Sys2Proof/Word.lean ====
section
/-! DEFINITION. The two word types of the machine (00_scope.md R8: bit 0 is the least significant bit, all values
unsigned). -/

namespace Sys2Proof

/-- A byte: a V register, a timer, a memory byte (R8). -/
abbrev Byte := BitVec 8

/-- A 16-bit value: the instruction word, `pc`, `I`, a return address (R8). -/
abbrev Word := BitVec 16

end Sys2Proof
end

