-- ==== Sys2Proof/Config.lean ====
section
/-! DEFINITION. The fixed sizes (00_scope.md R6), the parameters (R7), and the free inputs, which have no body: no proof
can know a value of one (R15, R33). -/

namespace Sys2Proof

/-- Bytes of memory, addresses 0x000 to 0xFFF (R6 `MEM_SIZE`). -/
abbrev Config.memSize : Nat := 4096
/-- Bytes of font table, from address 0 (R6 `FONT_LEN`). -/
abbrev Config.fontLen : Nat := 80
/-- Load address of a program and reset value of `pc` (R6 `PROG_BASE`). -/
abbrev Config.progBase : Nat := 0x200
/-- The largest program in bytes (R6 `ROM_MAX`). -/
abbrev Config.romMax : Nat := 3584
/-- Timer ticks per second, not configurable (R6 `TIMER_HZ`). -/
abbrev Config.timerHz : Nat := 60
/-- Frames per second (R6 `FRAME_HZ`); a rate of its own, though numerically equal. -/
abbrev Config.frameHz : Nat := 60

/-- The parameters of R7. They are constant between resets (R343) and are held in the state as plain data, so that every
statement about all states holds for all their values (DESIGN CHOICE, assumption 1). -/
structure Params where
  /-- `QUIRK_SHIFT`: `VX ← VY` before a shift. -/
  quirkShift : Bool
  /-- `INSTR_HZ`: instruction cycles per second. -/
  instrHz : Nat
  /-- `U`: wall-clock ticks per second. -/
  u : Nat
  /-- `FONT`: the 80 bytes of the font table. -/
  font : Vector Byte 80
  deriving DecidableEq, Repr

/-- The value of `QUIRK_SHIFT` in the reset state: the spec leaves it OPEN with no default (R7, D10), so it has no body
(assumption 1). -/
opaque Config.openQuirkShift : Bool

/-- The `k`-th free input taken as a keypad sample, bit `j` = key `j` is pressed (R237; assumption 5). -/
opaque Config.freeKeys : Nat → BitVec 16

/-- The `k`-th free input taken as a random byte (R238; assumption 6). -/
opaque Config.freeRandom : Nat → Byte

/-- The `k`-th free input taken as an advance of the wall clock: how far `now` lies past the previous sample, so that
`now` never decreases (R261; assumption 7). -/
opaque Config.freeClockAdvance : Nat → Nat

end Sys2Proof
end

