-- ==== Sys2Proof/Syntax.lean ====
section
/-! DEFINITION. The 34 instructions of 30_encoding.md R95, one constructor per row of spec/opcode_table.json, in the
table's order, and the names of the unrecognised families of R96. -/

namespace Sys2Proof

/-- The index of a general register, an `X` or `Y` field (R91, R93). -/
abbrev Reg := Fin 16

/-- One constructor per row of the opcode map (R95). An `NNN` operand is held as the 16-bit value `zext_16(NNN)`
that every rule uses (R93); that its high four bits are 0 is the check of WellFormed.lean. -/
inductive Instr where
  /-- 00E0 -/
  | cls
  /-- 00EE -/
  | ret
  /-- 1NNN -/
  | jp (nnn : Word)
  /-- 2NNN -/
  | call (nnn : Word)
  /-- 3XNN -/
  | seImm (x : Reg) (nn : Byte)
  /-- 4XNN -/
  | sneImm (x : Reg) (nn : Byte)
  /-- 5XY0 -/
  | seReg (x y : Reg)
  /-- 6XNN -/
  | ldImm (x : Reg) (nn : Byte)
  /-- 7XNN -/
  | addImm (x : Reg) (nn : Byte)
  /-- 8XY0 -/
  | ldReg (x y : Reg)
  /-- 8XY1 -/
  | orReg (x y : Reg)
  /-- 8XY2 -/
  | andReg (x y : Reg)
  /-- 8XY3 -/
  | xorReg (x y : Reg)
  /-- 8XY4 -/
  | addReg (x y : Reg)
  /-- 8XY5 -/
  | subReg (x y : Reg)
  /-- 8XY6 -/
  | shr (x y : Reg)
  /-- 8XY7 -/
  | subnReg (x y : Reg)
  /-- 8XYE -/
  | shl (x y : Reg)
  /-- 9XY0 -/
  | sneReg (x y : Reg)
  /-- ANNN -/
  | ldI (nnn : Word)
  /-- BNNN -/
  | jpV0 (nnn : Word)
  /-- CXNN -/
  | rnd (x : Reg) (nn : Byte)
  /-- DXYN; `n` is the row count 0..15 -/
  | drw (x y : Reg) (n : Fin 16)
  /-- EX9E -/
  | skp (x : Reg)
  /-- EXA1 -/
  | sknp (x : Reg)
  /-- FX07 -/
  | ldFromDt (x : Reg)
  /-- FX0A -/
  | ldKey (x : Reg)
  /-- FX15 -/
  | ldToDt (x : Reg)
  /-- FX18 -/
  | ldToSt (x : Reg)
  /-- FX1E -/
  | addI (x : Reg)
  /-- FX29 -/
  | ldFont (x : Reg)
  /-- FX33 -/
  | ldBcd (x : Reg)
  /-- FX55 -/
  | dump (x : Reg)
  /-- FX65 -/
  | load (x : Reg)
  deriving DecidableEq, Repr

/-- The families that hold unrecognised words, R96: the name under which the decoder rejects a word. -/
inductive Unrecognised where
  /-- `0NNN` with `NNN` neither 0x0E0 nor 0x0EE -/
  | family0
  /-- `5XYN` with `N ≠ 0` -/
  | family5
  /-- `8XYN` with `N` one of 8 to D, or F -/
  | family8
  /-- `9XYN` with `N ≠ 0` -/
  | family9
  /-- `EXNN` with `NN` neither 0x9E nor 0xA1 -/
  | familyE
  /-- `FXNN` with `NN` none of the nine sub-opcodes -/
  | familyF
  deriving DecidableEq, Repr

end Sys2Proof
end

