-- ==== Sys2Proof/WellFormed.lean ====
section
/-! DEFINITION. Which instruction terms the encoding can hold, and which parameters R7 admits. The operand types admit
exactly the encodable values of `X`, `Y`, `N` and `NN`; what is left to check is that an `NNN` operand has 12 bits. -/

namespace Sys2Proof

/-- `NNN` is 0..4095, held as a 16-bit value (R93). -/
abbrev isAddress12 (nnn : Word) : Prop := nnn.toNat < 4096

/-- The terms that some instruction word stands for (R91, R93). -/
def Instr.wellFormed : Instr → Bool
  | .jp nnn => decide (isAddress12 nnn)
  | .call nnn => decide (isAddress12 nnn)
  | .ldI nnn => decide (isAddress12 nnn)
  | .jpV0 nnn => decide (isAddress12 nnn)
  | .cls => true
  | .ret => true
  | .seImm _ _ => true
  | .sneImm _ _ => true
  | .seReg _ _ => true
  | .ldImm _ _ => true
  | .addImm _ _ => true
  | .ldReg _ _ => true
  | .orReg _ _ => true
  | .andReg _ _ => true
  | .xorReg _ _ => true
  | .addReg _ _ => true
  | .subReg _ _ => true
  | .shr _ _ => true
  | .subnReg _ _ => true
  | .shl _ _ => true
  | .sneReg _ _ => true
  | .rnd _ _ => true
  | .drw _ _ _ => true
  | .skp _ => true
  | .sknp _ => true
  | .ldFromDt _ => true
  | .ldKey _ => true
  | .ldToDt _ => true
  | .ldToSt _ => true
  | .addI _ => true
  | .ldFont _ => true
  | .ldBcd _ => true
  | .dump _ => true
  | .load _ => true

/-- The constraint of R7 on `U` and `INSTR_HZ`: the three periods of R260 are exact positive integers. -/
abbrev Params.wellFormed (p : Params) : Prop :=
  0 < p.instrHz ∧ 0 < p.u ∧ p.u % p.instrHz = 0 ∧ p.u % Config.timerHz = 0 ∧ p.u % Config.frameHz = 0

end Sys2Proof
end

