-- ==== Sys2Proof/Decode.lean ====
section
/-! DEFINITION. 30_encoding.md: the fields of an instruction word (R91), the decoder (R94), the encoder, and the opcode
map as the spec prints it (R95). The decoder is total: a word that is no instruction is rejected under its family's
name (R96). -/

namespace Sys2Proof

/-! ## Fields (R91) -/

/-- `W`, bits 15..12. -/
def fieldW (op : Word) : BitVec 4 := op.extractLsb' 12 4
/-- `X`, bits 11..8. -/
def fieldX (op : Word) : BitVec 4 := op.extractLsb' 8 4
/-- `Y`, bits 7..4. -/
def fieldY (op : Word) : BitVec 4 := op.extractLsb' 4 4
/-- `N`, bits 3..0. -/
def fieldN (op : Word) : BitVec 4 := op.extractLsb' 0 4
/-- `NN`, bits 7..0. -/
def fieldNN (op : Word) : Byte := op.extractLsb' 0 8
/-- `NNN`, bits 11..0, as `zext_16(NNN)` (R93). -/
def fieldNNN (op : Word) : Word := (op.extractLsb' 0 12).setWidth 16

/-- A register field as a register index. -/
def regOf (f : BitVec 4) : Reg := f.toFin

/-! ## Decoding (R94) -/

/-- Family 8: nested dispatch on `N`. -/
def decode8 (x y : Reg) (n : BitVec 4) : Except Unrecognised Instr :=
  match n.toNat with
  | 0x0 => .ok (.ldReg x y)
  | 0x1 => .ok (.orReg x y)
  | 0x2 => .ok (.andReg x y)
  | 0x3 => .ok (.xorReg x y)
  | 0x4 => .ok (.addReg x y)
  | 0x5 => .ok (.subReg x y)
  | 0x6 => .ok (.shr x y)
  | 0x7 => .ok (.subnReg x y)
  | 0xE => .ok (.shl x y)
  | _ => .error .family8

/-- Family E: nested dispatch on `NN`. -/
def decodeE (x : Reg) (nn : Byte) : Except Unrecognised Instr :=
  match nn.toNat with
  | 0x9E => .ok (.skp x)
  | 0xA1 => .ok (.sknp x)
  | _ => .error .familyE

/-- Family F: nested dispatch on `NN`. -/
def decodeF (x : Reg) (nn : Byte) : Except Unrecognised Instr :=
  match nn.toNat with
  | 0x07 => .ok (.ldFromDt x)
  | 0x0A => .ok (.ldKey x)
  | 0x15 => .ok (.ldToDt x)
  | 0x18 => .ok (.ldToSt x)
  | 0x1E => .ok (.addI x)
  | 0x29 => .ok (.ldFont x)
  | 0x33 => .ok (.ldBcd x)
  | 0x55 => .ok (.dump x)
  | 0x65 => .ok (.load x)
  | _ => .error .familyF

/-- Families 0, 5 and 9, where the table's patterns fix more than `W` (R94; 90_conflicts.md C5, C6). -/
def decode0 (op : Word) : Except Unrecognised Instr :=
  if op = 0x00E0 then .ok .cls else if op = 0x00EE then .ok .ret else .error .family0

def decode5 (x y : Reg) (n : BitVec 4) : Except Unrecognised Instr :=
  if n = 0 then .ok (.seReg x y) else .error .family5

def decode9 (x y : Reg) (n : BitVec 4) : Except Unrecognised Instr :=
  if n = 0 then .ok (.sneReg x y) else .error .family9

/-- The instruction a word selects, by `W` and then by the nested dispatch of its family (R94). -/
def decode (op : Word) : Except Unrecognised Instr :=
  match (fieldW op).toNat with
  | 0x0 => decode0 op
  | 0x1 => .ok (.jp (fieldNNN op))
  | 0x2 => .ok (.call (fieldNNN op))
  | 0x3 => .ok (.seImm (regOf (fieldX op)) (fieldNN op))
  | 0x4 => .ok (.sneImm (regOf (fieldX op)) (fieldNN op))
  | 0x5 => decode5 (regOf (fieldX op)) (regOf (fieldY op)) (fieldN op)
  | 0x6 => .ok (.ldImm (regOf (fieldX op)) (fieldNN op))
  | 0x7 => .ok (.addImm (regOf (fieldX op)) (fieldNN op))
  | 0x8 => decode8 (regOf (fieldX op)) (regOf (fieldY op)) (fieldN op)
  | 0x9 => decode9 (regOf (fieldX op)) (regOf (fieldY op)) (fieldN op)
  | 0xA => .ok (.ldI (fieldNNN op))
  | 0xB => .ok (.jpV0 (fieldNNN op))
  | 0xC => .ok (.rnd (regOf (fieldX op)) (fieldNN op))
  | 0xD => .ok (.drw (regOf (fieldX op)) (regOf (fieldY op)) (fieldN op).toFin)
  | 0xE => decodeE (regOf (fieldX op)) (fieldNN op)
  | _ => decodeF (regOf (fieldX op)) (fieldNN op)

/-- The instruction in two bytes as memory holds them, the byte at the lower address first: bits 15..8 (R90, R65). -/
def wordOfBytes (hi lo : Byte) : Word := BitVec.ofNat 16 (hi.toNat * 256 + lo.toNat)

/-- The decoder on the bytes of memory. -/
def decodeBytes (hi lo : Byte) : Except Unrecognised Instr := decode (wordOfBytes hi lo)

/-- The byte of a word that lies at the lower address. -/
def highByte (w : Word) : Byte := w.extractLsb' 8 8
/-- The byte of a word that lies at the higher address. -/
def lowByte (w : Word) : Byte := w.extractLsb' 0 8

/-- The word of an instruction whose `nbits` bits are `w`, every bit above them 0. -/
def tableWord (nbits w : Nat) : Word := BitVec.ofNat 16 (w % 2 ^ nbits)

/-- What the decoder reads from an instruction given as the opcode table numbers its bits. -/
def decodeTableWord (nbits w : Nat) : Option Instr :=
  (decodeBytes (highByte (tableWord nbits w)) (lowByte (tableWord nbits w))).toOption

/-! ## Encoding: the formats of R92 -/

/-- Format A: `wwww NNNN NNNN NNNN`. -/
def wordA (w : BitVec 4) (nnn : Word) : Word := BitVec.ofNat 16 (w.toNat * 4096 + nnn.toNat % 4096)
/-- Formats XI and XS: `wwww XXXX IIII IIII`, the low byte a literal or a fixed sub-opcode. -/
def wordXI (w : BitVec 4) (x : Reg) (nn : Byte) : Word := BitVec.ofNat 16 (w.toNat * 4096 + x.val * 256 + nn.toNat)
/-- Formats XY and XYN: `wwww XXXX YYYY ssss`, the low nibble a fixed sub-opcode or a literal. -/
def wordXY (w : BitVec 4) (x y : Reg) (n : BitVec 4) : Word :=
  BitVec.ofNat 16 (w.toNat * 4096 + x.val * 256 + y.val * 16 + n.toNat)

/-- The word of an instruction (R92, R95). -/
def encode : Instr → Word
  | .cls => 0x00E0
  | .ret => 0x00EE
  | .jp nnn => wordA 0x1 nnn
  | .call nnn => wordA 0x2 nnn
  | .seImm x nn => wordXI 0x3 x nn
  | .sneImm x nn => wordXI 0x4 x nn
  | .seReg x y => wordXY 0x5 x y 0x0
  | .ldImm x nn => wordXI 0x6 x nn
  | .addImm x nn => wordXI 0x7 x nn
  | .ldReg x y => wordXY 0x8 x y 0x0
  | .orReg x y => wordXY 0x8 x y 0x1
  | .andReg x y => wordXY 0x8 x y 0x2
  | .xorReg x y => wordXY 0x8 x y 0x3
  | .addReg x y => wordXY 0x8 x y 0x4
  | .subReg x y => wordXY 0x8 x y 0x5
  | .shr x y => wordXY 0x8 x y 0x6
  | .subnReg x y => wordXY 0x8 x y 0x7
  | .shl x y => wordXY 0x8 x y 0xE
  | .sneReg x y => wordXY 0x9 x y 0x0
  | .ldI nnn => wordA 0xA nnn
  | .jpV0 nnn => wordA 0xB nnn
  | .rnd x nn => wordXI 0xC x nn
  | .drw x y n => wordXY 0xD x y (BitVec.ofFin n)
  | .skp x => wordXI 0xE x 0x9E
  | .sknp x => wordXI 0xE x 0xA1
  | .ldFromDt x => wordXI 0xF x 0x07
  | .ldKey x => wordXI 0xF x 0x0A
  | .ldToDt x => wordXI 0xF x 0x15
  | .ldToSt x => wordXI 0xF x 0x18
  | .addI x => wordXI 0xF x 0x1E
  | .ldFont x => wordXI 0xF x 0x29
  | .ldBcd x => wordXI 0xF x 0x33
  | .dump x => wordXI 0xF x 0x55
  | .load x => wordXI 0xF x 0x65

/-! ## The opcode map (R95) -/

/-- The `mask` and `match` columns of one row of R95. -/
structure OpRow where
  mask : Word
  value : Word
  deriving DecidableEq, Repr

/-- "An instruction is selected when `op AND mask = match` for its row" (R94). -/
abbrev OpRow.Selects (r : OpRow) (op : Word) : Prop := op &&& r.mask = r.value

/-- The row of R95 an instruction stands in. -/
def opRow : Instr → OpRow
  | .cls => ⟨0xFFFF, 0x00E0⟩
  | .ret => ⟨0xFFFF, 0x00EE⟩
  | .jp _ => ⟨0xF000, 0x1000⟩
  | .call _ => ⟨0xF000, 0x2000⟩
  | .seImm _ _ => ⟨0xF000, 0x3000⟩
  | .sneImm _ _ => ⟨0xF000, 0x4000⟩
  | .seReg _ _ => ⟨0xF00F, 0x5000⟩
  | .ldImm _ _ => ⟨0xF000, 0x6000⟩
  | .addImm _ _ => ⟨0xF000, 0x7000⟩
  | .ldReg _ _ => ⟨0xF00F, 0x8000⟩
  | .orReg _ _ => ⟨0xF00F, 0x8001⟩
  | .andReg _ _ => ⟨0xF00F, 0x8002⟩
  | .xorReg _ _ => ⟨0xF00F, 0x8003⟩
  | .addReg _ _ => ⟨0xF00F, 0x8004⟩
  | .subReg _ _ => ⟨0xF00F, 0x8005⟩
  | .shr _ _ => ⟨0xF00F, 0x8006⟩
  | .subnReg _ _ => ⟨0xF00F, 0x8007⟩
  | .shl _ _ => ⟨0xF00F, 0x800E⟩
  | .sneReg _ _ => ⟨0xF00F, 0x9000⟩
  | .ldI _ => ⟨0xF000, 0xA000⟩
  | .jpV0 _ => ⟨0xF000, 0xB000⟩
  | .rnd _ _ => ⟨0xF000, 0xC000⟩
  | .drw _ _ _ => ⟨0xF000, 0xD000⟩
  | .skp _ => ⟨0xF0FF, 0xE09E⟩
  | .sknp _ => ⟨0xF0FF, 0xE0A1⟩
  | .ldFromDt _ => ⟨0xF0FF, 0xF007⟩
  | .ldKey _ => ⟨0xF0FF, 0xF00A⟩
  | .ldToDt _ => ⟨0xF0FF, 0xF015⟩
  | .ldToSt _ => ⟨0xF0FF, 0xF018⟩
  | .addI _ => ⟨0xF0FF, 0xF01E⟩
  | .ldFont _ => ⟨0xF0FF, 0xF029⟩
  | .ldBcd _ => ⟨0xF0FF, 0xF033⟩
  | .dump _ => ⟨0xF0FF, 0xF055⟩
  | .load _ => ⟨0xF0FF, 0xF065⟩

/-- The rows of R95 in the table's order: one instruction of each row, with zero operands, gives its row. -/
def opcodeMap : List OpRow :=
  ([.cls, .ret, .jp 0, .call 0, .seImm 0 0, .sneImm 0 0, .seReg 0 0, .ldImm 0 0, .addImm 0 0, .ldReg 0 0, .orReg 0 0,
    .andReg 0 0, .xorReg 0 0, .addReg 0 0, .subReg 0 0, .shr 0 0, .subnReg 0 0, .shl 0 0, .sneReg 0 0, .ldI 0, .jpV0 0,
    .rnd 0 0, .drw 0 0 0, .skp 0, .sknp 0, .ldFromDt 0, .ldKey 0, .ldToDt 0, .ldToSt 0, .addI 0, .ldFont 0, .ldBcd 0,
    .dump 0, .load 0] : List Instr).map opRow

end Sys2Proof
end

