-- ==== Sys2Proof/Machine/Memory.lean ====
section
/-! DEFINITION. The memory of 20_memory.md as plain data: a list of (address, byte) pairs in one canonical form. An
address that is not listed reads as its contents after reset (10_state.md R35): FONT at 0x000..0x04F, else 0. -/

namespace Sys2Proof.Machine

/-- The bytes that differ from the reset contents, addresses rising. -/
abbrev Memory := List Host.Cell

/-- What an unlisted address reads as: `FONT[a]` in the font table, else 0 (R28, R35). -/
def unlisted (font : Vector Byte 80) (a : Nat) : Byte :=
  if h : a < 80 then font[a] else 0

/-- The byte at an address. -/
def Memory.read (font : Vector Byte 80) : Memory → Nat → Byte
  | [], a => unlisted font a
  | (k, b) :: m, a => if a = k then b else Memory.read font m a

/-- The list without any entry for address `a`. -/
def Memory.without (a : Nat) (m : Memory) : Memory := m.filter fun c => decide (c.1 ≠ a)

/-- The list with an entry for `a` in its place among the rising addresses. -/
def Memory.insert (a : Nat) (v : Byte) : Memory → Memory
  | [] => [(a, v)]
  | (k, b) :: m => if a < k then (a, v) :: (k, b) :: m else (k, b) :: Memory.insert a v m

/-- A store of one byte, keeping the canonical form: a byte equal to the reset contents is not listed. -/
def Memory.write (font : Vector Byte 80) (m : Memory) (a : Nat) (v : Byte) : Memory :=
  if v = unlisted font a then m.without a else (m.without a).insert a v

/-- The canonical form: addresses strictly rising and inside the address space (R60), and no entry equal to what an
unlisted address reads as. -/
abbrev Memory.wf (font : Vector Byte 80) (m : Memory) : Prop :=
  m.Pairwise (fun c d => c.1 < d.1) ∧ ∀ c ∈ m, c.1 < Config.memSize ∧ c.2 ≠ unlisted font c.1

end Sys2Proof.Machine
end

