-- ==== Sys2Proof/Machine/State.lean ====
section
/-! DEFINITION. The state of the machine, complete by 10_state.md R38, as plain data; its value after reset (R35); and
the reasons a transition can stop. -/

namespace Sys2Proof.Machine

/-- The fault codes of 60_exceptions.md R300. A fatal error of the spec is a NEXT state that records one of these. -/
inductive FaultCode where
  /-- 0: no fault, the reset value -/
  | none
  /-- 1: 2NNN with `SP = 16` -/
  | stackOverflow
  /-- 2: 00EE with `SP = 0` -/
  | stackUnderflow
  /-- 3: FX33 with `I + 2 > 0xFFF` -/
  | bcdRange
  /-- 4: fetch with `pc + 1 > 0xFFF` -/
  | fetchRange
  /-- 5: DXYN, FX55, FX65 whose run passes 0xFFF -/
  | dataRange
  /-- 6: EX9E, EXA1 with `VX > 0xF` -/
  | keyIndex
  deriving DecidableEq, Repr

/-- The fault record of R31, R302. -/
structure FaultRecord where
  code : FaultCode
  /-- The address of the faulting instruction. -/
  pc : Word
  /-- Its word, 0 for a fetch fault. -/
  op : Word
  /-- The offending address, an unbounded integer, 0 where the code has none. -/
  addr : Nat
  deriving DecidableEq, Repr

/-- The state. The last three fields are the MODEL's own, not the spec's (assumptions 1, 8, 9). -/
structure State where
  /-- `V[0]` .. `V[15]` (R20); `V[15]` is also the flag register (R21). -/
  v : Vector Byte 16
  /-- The index register `I` (R22). -/
  i : Word
  /-- The program counter (R23). -/
  pc : Word
  /-- `SP`, the number of entries held, 0..16 (R25). -/
  sp : Fin 17
  /-- The 16 slots of the call stack, outside memory (R25). -/
  stack : Vector Word 16
  /-- DelayTimer (R26). -/
  dt : Byte
  /-- SoundTimer (R26). -/
  st : Byte
  /-- The display (R27): row `r` counted from the top; bit `c` of a row is its column `c` counted from the left. -/
  disp : Vector (BitVec 64) 32
  /-- Memory (R28), the bytes that differ from their reset contents. -/
  mem : Memory
  /-- The instruction accumulator `acc_i` (R30). -/
  accI : Nat
  /-- The timer accumulator `acc_t` (R30). -/
  accT : Nat
  /-- The render accumulator `acc_r` (R30). -/
  accR : Nat
  /-- The last wall-clock sample (R30). -/
  lastTime : Nat
  /-- Set by a fault, cleared by Reset only (R31, R304). -/
  halted : Bool
  /-- The fault record (R31). -/
  fault : FaultRecord
  /-- The parameters of R7, constant between resets. -/
  params : Params
  /-- How many free inputs have been taken: the argument of the next one. -/
  draws : Nat
  /-- Whether the load port is open: after Reset and before the first Iterate (R73, D23). -/
  loadOpen : Bool
  deriving DecidableEq, Repr

/-- Where a transition of the machine stops without a next state. -/
inductive Fault where
  /-- Raised by `step` and by `iterate` on a machine that is not halted, when the parameters break R7's constraint: the
  periods of R260 are then no exact positive integers and a drain loop of R262 need not end. A stuck state, safe; no
  state with parameters that meet R7 raises it (assumption 23). -/
  | noExactPeriods
  deriving DecidableEq, Repr

/-- What the model gives no meaning to. -/
inductive Refusal where
  /-- Raised by an arm of `exec` for an instruction that has no meaning yet: none. Safe. -/
  | notModelled (mnemonic : String)
  /-- Raised by `loadByte` when the load port is closed (R73, U17). Safe. -/
  | loadPortClosed
  /-- Raised by `loadByte` for an address below 0x200 (R73, U17). Safe. -/
  | loadOutsideProgram
  /-- Raised by `loadImage` for an image longer than 3584 bytes (R73, U16). Safe. -/
  | imageTooLong
  /-- Raised by `iterate` for `now < last_time` (R261, U18). Safe. -/
  | clockWentBack
  deriving DecidableEq, Repr

/-- The fault record after reset (R31). -/
def FaultRecord.clear : FaultRecord := ⟨.none, 0, 0, 0⟩

/-- `Reset(now)` of 70_reset_and_hazards.md R340, with the parameters fixed before it (R343). `draws` is not touched by a
reset: the environment's inputs go on. -/
def State.resetWith (p : Params) (now draws : Nat) : State where
  v := Vector.replicate 16 0
  i := 0
  pc := 0x200
  sp := 0
  stack := Vector.replicate 16 0
  dt := 0
  st := 0
  disp := Vector.replicate 32 0
  mem := []
  accI := 0
  accT := 0
  accR := 0
  lastTime := now
  halted := false
  fault := FaultRecord.clear
  params := p
  draws := draws
  loadOpen := true

/-- The parameters of the reset state: the spec's defaults, `U = 1500` (DESIGN CHOICE, assumption 2), and a
`QUIRK_SHIFT` nothing is known of (assumption 1). -/
def defaultParams : Params := ⟨Config.openQuirkShift, 500, 1500, conventionalFont⟩

/-- The machine right after reset (R35), the wall clock read as 0 (DESIGN CHOICE, assumption 4). -/
def State.reset : State := State.resetWith defaultParams 0 0

end Sys2Proof.Machine
end

