-- ==== Sys2Proof/Machine/Ops.lean ====
section
/-! DEFINITION. The named operations over registers, memory, the call stack, the program counter and the free inputs, and
taking a fault (60_exceptions.md R303). -/

namespace Sys2Proof.Machine

/-- What a transition answers. -/
abbrev Result := Host.Outcome State Fault Refusal

/-- `VF`, the flag register (R21). -/
abbrev vf : Reg := 15

/-! ## General registers (R20) -/

/-- `V[r]`. -/
def State.getV (s : State) (r : Reg) : Byte := s.v.get r
/-- `V[r] <- b`. -/
def State.setV (s : State) (r : Reg) (b : Byte) : State := { s with v := s.v.set r.val b r.isLt }

/-- Writes the bytes to consecutive registers from number `k` on: the destination run of FX65 (R195). -/
def State.setRegs (s : State) (k : Nat) : List Byte → State
  | [] => s
  | b :: bs => State.setRegs (if h : k < 16 then s.setV ⟨k, h⟩ b else s) (k + 1) bs

/-- `V[0]` .. `V[x]`, the source run of FX55 (R194). -/
def State.regsUpTo (s : State) (x : Reg) : List Byte := s.v.toList.take (x.val + 1)

/-! ## Program counter (R23) -/

/-- The advance of a step: `pc <- (pc + 2) mod 65536` (R121). -/
def State.advance (s : State) : State := { s with pc := s.pc + 2 }
/-- `Skip()` (R123). -/
def State.skip (s : State) : State := { s with pc := s.pc + 2 }
/-- `Skip()` when the condition holds. -/
def State.skipIf (s : State) (c : Bool) : State := if c then s.skip else s
/-- Back to the instruction itself: `pc <- (pc - 2) mod 65536` (R232). -/
def State.rewind (s : State) : State := { s with pc := s.pc - 2 }
/-- `pc <- target`. -/
def State.jump (s : State) (target : Word) : State := { s with pc := target }

/-! ## Index register and timers (R22, R26) -/

/-- `I <- w`. -/
def State.setI (s : State) (w : Word) : State := { s with i := w }
/-- `DT <- b`. -/
def State.setDt (s : State) (b : Byte) : State := { s with dt := b }
/-- `ST <- b`. -/
def State.setSt (s : State) (b : Byte) : State := { s with st := b }

/-! ## Call stack (R25) -/

/-- The slot `stack[k]`. -/
def State.slot (s : State) (k : Fin 16) : Word := s.stack.get k

/-- The state after `Push(a)` into a free slot: `stack[SP] <- a ; SP <- SP + 1`. -/
def State.pushed (s : State) (a : Word) (h : s.sp.val < 16) : State :=
  { s with stack := s.stack.set s.sp.val a h, sp := ⟨s.sp.val + 1, by omega⟩ }

/-- `Push(a)`: nothing when 16 entries are held. -/
def State.push? (s : State) (a : Word) : Option State :=
  if h : s.sp.val < 16 then some (s.pushed a h) else none

/-- The slot of the most recent entry, `SP - 1`. -/
def State.topIndex (s : State) : Fin 16 := ⟨s.sp.val - 1, by have := s.sp.isLt; omega⟩

/-- The state after `Pop()`: `SP <- SP - 1`; the popped slot keeps its contents. -/
def State.popped (s : State) : State := { s with sp := ⟨s.sp.val - 1, by have := s.sp.isLt; omega⟩ }

/-- `Pop()`: nothing when the stack is empty. -/
def State.pop? (s : State) : Option (Word × State) :=
  if s.sp.val = 0 then none else some (s.slot s.topIndex, s.popped)

/-! ## Memory (20_memory.md) -/

/-- The byte at an address of 0x000..0xFFF (R62); the instructions check the range before they read. -/
def State.byteAt (s : State) (a : Nat) : Byte := s.mem.read s.params.font a

/-- A store of one byte at an address of 0x000..0xFFF (R63); an address above it does not exist and is not written. -/
def State.setByte (s : State) (a : Nat) (b : Byte) : State :=
  if a < Config.memSize then { s with mem := s.mem.write s.params.font a b } else s

/-- Stores the bytes at consecutive addresses from `base` on (R65). -/
def State.setBytes (s : State) (base : Nat) : List Byte → State
  | [] => s
  | b :: bs => State.setBytes (s.setByte base b) (base + 1) bs

/-- The `n` bytes at `base`, `base + 1`, ... (R65). -/
def State.bytesAt (s : State) (base n : Nat) : List Byte := (List.range n).map fun k => s.byteAt (base + k)

/-- The lowest address above 0xFFF in the run of `n` bytes from `base`, computed without wrap (R64); none when the
whole run exists. An empty run always does. -/
def firstOutside (base n : Nat) : Option Nat :=
  if n = 0 ∨ base + n ≤ Config.memSize then none
  else some (if Config.memSize ≤ base then base else Config.memSize)

/-! ## Display (R27) -/

/-- The pixel `disp[r][c]`. -/
def State.pixel (s : State) (r : Fin 32) (c : Fin 64) : Bool := (s.disp.get r).getLsbD c.val

/-- All pixels to 0. -/
def State.clearDisplay (s : State) : State := { s with disp := Vector.replicate 32 0 }

/-! ## Free inputs (R33) -/

/-- The keypad as a sample taken now would see it (R237). -/
def State.keysNow (s : State) : BitVec 16 := Config.freeKeys s.draws
/-- The byte a draw taken now would give (R238). -/
def State.randomNow (s : State) : Byte := Config.freeRandom s.draws
/-- The wall clock as a sample taken now would read it: never below the last sample (R261). -/
def State.clockNow (s : State) : Nat := s.lastTime + Config.freeClockAdvance s.draws
/-- One free input has been taken. -/
def State.drawn (s : State) : State := { s with draws := s.draws + 1 }

/-! ## Faults (60_exceptions.md) -/

/-- The number of a code, the 3-bit field `fault.code` (R300). -/
def FaultCode.number : FaultCode → BitVec 3
  | .none => 0
  | .stackOverflow => 1
  | .stackUnderflow => 2
  | .bcdRange => 3
  | .fetchRange => 4
  | .dataRange => 5
  | .keyIndex => 6

/-- Fault entry (R303), on the state the step began in: nothing of the step remains, the record is written and the
machine is halted. `op` is the fetched word, 0 for a fetch fault (R302). There is no return from a fault (R304): only
`State.hostReset` clears `halted`. -/
def State.raise (s : State) (code : FaultCode) (op : Word) (addr : Nat) : State :=
  { s with halted := true, fault := ⟨code, s.pc, op, addr⟩ }

/-- `Reset(now)` (R340) as the host performs it, at any time, with the parameters it fixes before it (R343). -/
def State.hostReset (s : State) (p : Params) (now : Nat) : State := State.resetWith p now s.draws

end Sys2Proof.Machine
end

