-- ==== Sys2Proof/Machine/HostPort.lean ====
section
/-! DEFINITION. The load port, 20_memory.md R73, and the boot sequence, 70_reset_and_hazards.md R343. The host acts on these
between transitions; they are no part of `step` (assumption 16). -/

namespace Sys2Proof.Machine

/-- `LoadByte(a, v)` at the port's 12-bit address. -/
def loadByte (a : BitVec 12) (v : Byte) (s : State) : Result :=
  if s.loadOpen = false then .refused .loadPortClosed
  else if a.toNat < Config.progBase then .refused .loadOutsideProgram
  else .next (s.setByte a.toNat v)

/-- Byte `k` of an image goes to `a + k`. -/
def loadBytes (a : Nat) : List Byte → State → Result
  | [], s => .next s
  | v :: vs, s =>
    match loadByte (BitVec.ofNat 12 a) v s with
    | .next t => loadBytes (a + 1) vs t
    | .fault r => .fault r
    | .refused r => .refused r

/-- A program image from 0x200 on; one longer than 3584 bytes is the loader's error (R73). -/
def loadImage (image : List Byte) (s : State) : Result :=
  if Config.romMax < image.length then .refused .imageTooLong else loadBytes Config.progBase image s

/-- Reset, then the loads (R343 (1) and (2)). -/
def boot (p : Params) (now : Nat) (image : List Byte) (s : State) : Result := loadImage image (s.hostReset p now)

end Sys2Proof.Machine
end

