-- ==== Sys2Proof/Machine/Flags.lean ====
section
/-! DEFINITION. Every flag computation of the spec. The only flag is `VF`, written as 0 or 1 (10_state.md R21), from the
operands read before any write (40_step_cycle.md R125). -/

namespace Sys2Proof.Machine

/-- A flag as the byte that `VF` receives. -/
def flagByte (f : Bool) : Byte := if f then 1 else 0

/-- 8XY4: carry out of the 8-bit sum (R166). -/
def carryFlag (a b : Byte) : Bool := decide (a.toNat + b.toNat > 255)

/-- 8XY5 and 8XY7: 1 exactly when the minuend is strictly greater (R167, R169; 90_conflicts.md C3). -/
def greaterFlag (minuend subtrahend : Byte) : Bool := decide (minuend.toNat > subtrahend.toNat)

/-- 8XY6: bit 0 of the value before the shift (R168). -/
def shrFlag (b : Byte) : Bool := b.getLsbD 0

/-- 8XYE: bit 7 of the value before the shift (R170). -/
def shlFlag (b : Byte) : Bool := b.getLsbD 7

/-- Result first, flag last: with `x = F` the flag wins (R125, R172). -/
def State.setResultAndFlag (s : State) (x : Reg) (result : Byte) (f : Bool) : State :=
  (s.setV x result).setV vf (flagByte f)

end Sys2Proof.Machine
end

