-- ==== Sys2Proof/Machine/Operands.lean ====
section
/-! DEFINITION. The operand forms: what an instruction computes from the registers it names before it writes anything
(40_step_cycle.md R125). -/

namespace Sys2Proof.Machine

/-- The base of the one addressing mode, register-indirect through `I`, as an unbounded integer (R64). -/
def State.indirectBase (s : State) : Nat := s.i.toNat

/-- The operand of 8XY6 and 8XYE: `VY` under `QUIRK_SHIFT`, else `VX` (R168, R170). -/
def State.shiftOperand (s : State) (x y : Reg) : Byte := if s.params.quirkShift then s.getV y else s.getV x

/-- The address of the glyph for the low nibble of a byte (R192): `FONT_BASE` is 0. -/
def glyphAddress (a : Byte) : Word := BitVec.ofNat 16 (5 * (a &&& 0x0F).toNat)

/-- The decimal digits of a byte, hundreds first, as binary values 0..9 (R193). -/
def decimalDigits (a : Byte) : List Byte :=
  [BitVec.ofNat 8 (a.toNat / 100), BitVec.ofNat 8 (a.toNat / 10 % 10), BitVec.ofNat 8 (a.toNat % 10)]

/-- The sum of two bytes, reduced mod 256 (R161, R166). -/
def addBytes (a b : Byte) : Byte := BitVec.ofNat 8 (a.toNat + b.toNat)

/-- The difference of two bytes, reduced mod 256 (R167, R169). -/
def subBytes (a b : Byte) : Byte := BitVec.ofNat 8 (256 + a.toNat - b.toNat)

/-- One logical shift to the right (R168). -/
def shiftRight (b : Byte) : Byte := BitVec.ofNat 8 (b.toNat / 2)

/-- One shift to the left, reduced mod 256 (R170). -/
def shiftLeft (b : Byte) : Byte := BitVec.ofNat 8 (b.toNat * 2)

/-- The lowest key down in a sample that has one (R232). -/
def lowestKey (keys : BitVec 16) : Nat := ((List.range 16).find? fun k => keys.getLsbD k).getD 0

end Sys2Proof.Machine
end

