-- ==== Sys2Proof/Machine/Alu.lean ====
section
/-! DEFINITION. Register load and ALU, 42_alu.md R160 to R172. None of these can fault; the flag is written last. -/

namespace Sys2Proof.Machine

/-- 6XNN (R160). -/
def execLdImm (x : Reg) (nn : Byte) (s : State) : Result := .next (s.advance.setV x nn)

/-- 7XNN (R161): no flag. -/
def execAddImm (x : Reg) (nn : Byte) (s : State) : Result := .next (s.advance.setV x (addBytes (s.getV x) nn))

/-- 8XY0 (R162). -/
def execLdReg (x y : Reg) (s : State) : Result := .next (s.advance.setV x (s.getV y))

/-- 8XY1 (R163): `VF` is not a flag here. -/
def execOrReg (x y : Reg) (s : State) : Result := .next (s.advance.setV x (s.getV x ||| s.getV y))

/-- 8XY2 (R164). -/
def execAndReg (x y : Reg) (s : State) : Result := .next (s.advance.setV x (s.getV x &&& s.getV y))

/-- 8XY3 (R165). -/
def execXorReg (x y : Reg) (s : State) : Result := .next (s.advance.setV x (s.getV x ^^^ s.getV y))

/-- 8XY4 (R166). -/
def execAddReg (x y : Reg) (s : State) : Result :=
  .next (s.advance.setResultAndFlag x (addBytes (s.getV x) (s.getV y)) (carryFlag (s.getV x) (s.getV y)))

/-- 8XY5 (R167). -/
def execSubReg (x y : Reg) (s : State) : Result :=
  .next (s.advance.setResultAndFlag x (subBytes (s.getV x) (s.getV y)) (greaterFlag (s.getV x) (s.getV y)))

/-- 8XY6 (R168). -/
def execShr (x y : Reg) (s : State) : Result :=
  .next (s.advance.setResultAndFlag x (shiftRight (s.shiftOperand x y)) (shrFlag (s.shiftOperand x y)))

/-- 8XY7 (R169): the values before the write are compared. -/
def execSubnReg (x y : Reg) (s : State) : Result :=
  .next (s.advance.setResultAndFlag x (subBytes (s.getV y) (s.getV x)) (greaterFlag (s.getV y) (s.getV x)))

/-- 8XYE (R170). -/
def execShl (x y : Reg) (s : State) : Result :=
  .next (s.advance.setResultAndFlag x (shiftLeft (s.shiftOperand x y)) (shlFlag (s.shiftOperand x y)))

end Sys2Proof.Machine
end

