-- ==== Sys2Proof/Machine/Display.lean ====
section
/-! DEFINITION. Display instructions, 44_display.md R210 to R214: the two nested loops of the sprite renderer as the spec
writes them. -/

namespace Sys2Proof.Machine

/-- What the renderer works on: the display and whether a set sprite bit has met a set pixel (R211 `hit`). -/
structure Canvas where
  disp : Vector (BitVec 64) 32
  hit : Bool
  deriving DecidableEq, Repr

/-- The row a sprite row lands on, with wrap (R211). -/
def wrapRow (y : Nat) : Fin 32 := ⟨y % 32, Nat.mod_lt y (by decide)⟩

/-- The column a sprite bit lands on, with wrap (R211). -/
def wrapCol (x : Nat) : Fin 64 := ⟨x % 64, Nat.mod_lt x (by decide)⟩

/-- One set sprite bit: collision test, then XOR of the pixel with 1 (R211). -/
def Canvas.toggle (d : Canvas) (r : Fin 32) (c : Fin 64) : Canvas where
  disp := d.disp.set r.val (d.disp.get r ^^^ BitVec.twoPow 64 c.val) r.isLt
  hit := d.hit || (d.disp.get r).getLsbD c.val

/-- The inner loop from column offset `j` on, `n` offsets left: bit `7 - j` of the row byte is column offset `j`
(R211; D8, PRESUMED, assumption 13). -/
def Canvas.drawBits (d : Canvas) (row : Byte) (x0 y : Nat) (j : Nat) : Nat → Canvas
  | 0 => d
  | n + 1 =>
    Canvas.drawBits (if row.getLsbD (7 - j) then d.toggle (wrapRow y) (wrapCol (x0 + j)) else d) row x0 y (j + 1) n

/-- The outer loop: one row byte after the other, downwards from row `y` (R211). -/
def Canvas.drawRows (d : Canvas) (x0 y : Nat) : List Byte → Canvas
  | [] => d
  | row :: rows => Canvas.drawRows (d.drawBits row x0 y 0 8) x0 (y + 1) rows

/-- The canvas after the sprite rows are drawn at `(VX mod 64, VY mod 32)` (R211; 90_conflicts.md C1). -/
def State.drawSprite (s : State) (x y : Reg) (rows : List Byte) : Canvas :=
  Canvas.drawRows ⟨s.disp, false⟩ ((s.getV x).toNat % 64) ((s.getV y).toNat % 32) rows

/-- The display of the canvas, then `VF <- hit`. -/
def State.setCanvas (s : State) (d : Canvas) : State := { s with disp := d.disp }.setV vf (flagByte d.hit)

/-- 00E0 (R210). -/
def execCls (s : State) : Result := .next s.advance.clearDisplay

/-- DXYN (R211, R212). -/
def execDrw (x y : Reg) (n : Fin 16) (s : State) : Result :=
  match firstOutside s.indirectBase n.val with
  | some a => .next (s.raise .dataRange (encode (.drw x y n)) a)
  | none => .next (s.advance.setCanvas (s.drawSprite x y (s.bytesAt s.indirectBase n.val)))

end Sys2Proof.Machine
end

