-- ==== Sys2Proof/Machine/Flow.lean ====
section
/-! DEFINITION. Control transfer, 41_flow.md R140 to R148. Each meaning takes the state in which `pc` is the address of
the instruction. -/

namespace Sys2Proof.Machine

/-- 00EE (R140). -/
def execRet (s : State) : Result :=
  match s.advance.pop? with
  | none => .next (s.raise .stackUnderflow (encode .ret) 0)
  | some (target, s') => .next (s'.jump target)

/-- 1NNN (R141). -/
def execJp (nnn : Word) (s : State) : Result := .next (s.advance.jump nnn)

/-- 2NNN (R142): the pushed value is the advanced `pc`. -/
def execCall (nnn : Word) (s : State) : Result :=
  match s.advance.push? s.advance.pc with
  | none => .next (s.raise .stackOverflow (encode (.call nnn)) 0)
  | some s' => .next (s'.jump nnn)

/-- BNNN (R143): the sum is not reduced to 12 bits. -/
def execJpV0 (nnn : Word) (s : State) : Result := .next (s.advance.jump (nnn + (s.getV 0).setWidth 16))

/-- 3XNN (R144). -/
def execSeImm (x : Reg) (nn : Byte) (s : State) : Result := .next (s.advance.skipIf (decide (s.getV x = nn)))

/-- 4XNN (R145). -/
def execSneImm (x : Reg) (nn : Byte) (s : State) : Result := .next (s.advance.skipIf (decide (s.getV x ≠ nn)))

/-- 5XY0 (R146). -/
def execSeReg (x y : Reg) (s : State) : Result := .next (s.advance.skipIf (decide (s.getV x = s.getV y)))

/-- 9XY0 (R147). -/
def execSneReg (x y : Reg) (s : State) : Result := .next (s.advance.skipIf (decide (s.getV x ≠ s.getV y)))

end Sys2Proof.Machine
end

