-- ==== Sys2Proof/Machine/Index.lean ====
section
/-! DEFINITION. Index register and memory instructions, 43_index_memory.md R190 to R196. The whole run of a load or a
store is checked before the first effect; `I` is never changed by an access (D27). -/

namespace Sys2Proof.Machine

/-- ANNN (R190). -/
def execLdI (nnn : Word) (s : State) : Result := .next (s.advance.setI nnn)

/-- FX1E (R191): no overflow flag. -/
def execAddI (x : Reg) (s : State) : Result := .next (s.advance.setI (s.i + (s.getV x).setWidth 16))

/-- FX29 (R192). -/
def execLdFont (x : Reg) (s : State) : Result := .next (s.advance.setI (glyphAddress (s.getV x)))

/-- FX33 (R193). -/
def execLdBcd (x : Reg) (s : State) : Result :=
  match firstOutside s.indirectBase 3 with
  | some a => .next (s.raise .bcdRange (encode (.ldBcd x)) a)
  | none => .next (s.advance.setBytes s.indirectBase (decimalDigits (s.getV x)))

/-- FX55 (R194). -/
def execDump (x : Reg) (s : State) : Result :=
  match firstOutside s.indirectBase (x.val + 1) with
  | some a => .next (s.raise .dataRange (encode (.dump x)) a)
  | none => .next (s.advance.setBytes s.indirectBase (s.regsUpTo x))

/-- FX65 (R195). -/
def execLoad (x : Reg) (s : State) : Result :=
  match firstOutside s.indirectBase (x.val + 1) with
  | some a => .next (s.raise .dataRange (encode (.load x)) a)
  | none => .next (s.advance.setRegs 0 (s.bytesAt s.indirectBase (x.val + 1)))

end Sys2Proof.Machine
end

