-- ==== Sys2Proof/Machine/Input.lean ====
section
/-! DEFINITION. Keypad, timer and random instructions, 45_keypad_timers_random.md R230 to R239. A free input is taken at
the state's draw counter, and the counter advances (assumptions 5, 6, 8). -/

namespace Sys2Proof.Machine

/-- The skip of EX9E and EXA1 on a given sample: skip when key `VX` is in the state asked for (R230, R231). -/
def State.skipOnKey (s : State) (keys : BitVec 16) (x : Reg) (down : Bool) : State :=
  s.advance.skipIf (keys.getLsbD (s.getV x).toNat == down)

/-- The effect of FX0A on a given sample (R232): no key, and `pc` goes back to the instruction. -/
def State.waitKey (s : State) (keys : BitVec 16) (x : Reg) : State :=
  if keys = 0 then s.advance.rewind else s.advance.setV x (BitVec.ofNat 8 (lowestKey keys))

/-- The effect of CXNN on a given byte (R236). -/
def State.maskRandom (s : State) (r : Byte) (x : Reg) (nn : Byte) : State := s.advance.setV x (r &&& nn)

/-- EX9E (R230). A key index above 0xF faults before a sample is taken (D7). -/
def execSkp (x : Reg) (s : State) : Result :=
  if 0x0F < (s.getV x).toNat then .next (s.raise .keyIndex (encode (.skp x)) (s.getV x).toNat)
  else .next (s.drawn.skipOnKey s.keysNow x true)

/-- EXA1 (R231). -/
def execSknp (x : Reg) (s : State) : Result :=
  if 0x0F < (s.getV x).toNat then .next (s.raise .keyIndex (encode (.sknp x)) (s.getV x).toNat)
  else .next (s.drawn.skipOnKey s.keysNow x false)

/-- FX0A (R232). -/
def execLdKey (x : Reg) (s : State) : Result := .next (s.drawn.waitKey s.keysNow x)

/-- FX07 (R233). -/
def execLdFromDt (x : Reg) (s : State) : Result := .next (s.advance.setV x s.dt)

/-- FX15 (R234). -/
def execLdToDt (x : Reg) (s : State) : Result := .next (s.advance.setDt (s.getV x))

/-- FX18 (R235). -/
def execLdToSt (x : Reg) (s : State) : Result := .next (s.advance.setSt (s.getV x))

/-- CXNN (R236). -/
def execRnd (x : Reg) (nn : Byte) (s : State) : Result := .next (s.drawn.maskRandom s.randomNow x nn)

end Sys2Proof.Machine
end

