-- ==== Sys2Proof/Machine/Unassigned.lean ====
section
/-! DEFINITION. Unrecognised words, 46_unrecognized.md R250: a no-op that only advances `pc`. They have no row in the opcode
table, so no constructor of `Instr`; the decoder names the family of the rejected word. -/

namespace Sys2Proof.Machine

/-- An unrecognised word of whatever family (R250, R96). -/
def execUnrecognised (_family : Unrecognised) (s : State) : Result := .next s.advance

end Sys2Proof.Machine
end

