-- ==== Sys2Proof/Machine/Engine.lean ====
section
/-! DEFINITION. The instruction engine, 40_step_cycle.md: fetch (R120) and the transition `Step` (R121). -/

namespace Sys2Proof.Machine

/-- `Step()` (R121) on a machine that is not halted: fetch, decode, execute. The advance of `pc` is the first act of every
meaning, so that a fault finds `pc` at the instruction (R303). -/
def instructionStep (s : State) : Result :=
  match firstOutside s.pc.toNat 2 with
  | some a => .next (s.raise .fetchRange 0 a)
  | none =>
    match decodeBytes (s.byteAt s.pc.toNat) (s.byteAt (s.pc.toNat + 1)) with
    | .ok i => exec i s
    | .error family => execUnrecognised family s

/-- A word stored where the next fetch reads it, big-endian (R65). -/
def State.placeWord (s : State) (w : Word) : State := s.setBytes s.pc.toNat [highByte w, lowByte w]

end Sys2Proof.Machine
end

