-- ==== Sys2Proof/Machine/Ports.lean ====
section
/-! DEFINITION. The output ports of 10_state.md R34, functions of the state. The views `dbg_*` are the fields of State read
as they are (20_memory.md R75). -/

namespace Sys2Proof.Machine

/-- A frame as handed to presentation: bit `64 r + c` is `disp[r][c]` (R34, D25). -/
abbrev Frame := BitVec 2048

/-- The rows as one number, row 0 in the low bits. -/
def rowsToNat : List (BitVec 64) → Nat
  | [] => 0
  | row :: rows => row.toNat + 2 ^ 64 * rowsToNat rows

/-- The port `fb`. -/
def State.fb (s : State) : Frame := BitVec.ofNat 2048 (rowsToNat s.disp.toList)

/-- The port `snd_on`: 1 exactly while `ST > 0`. -/
def State.sndOn (s : State) : Bool := decide (0 < s.st.toNat)

/-- The port `fault_code` (R31, R300). -/
def State.faultCode (s : State) : BitVec 3 := s.fault.code.number

/-- `top()`, a pure query of the call stack (R25). -/
def State.stackTop? (s : State) : Option Word := s.pop?.map Prod.fst

/-- `isEmpty()` (R25). -/
def State.stackEmpty (s : State) : Bool := decide (s.sp.val = 0)

/-- `isFull()` (R25). -/
def State.stackFull (s : State) : Bool := decide (s.sp.val = 16)

end Sys2Proof.Machine
end

