-- ==== Sys2Proof/Machine/Scheduler.lean ====
section
/-! DEFINITION. The multi-rate scheduler, 47_scheduler.md: the periods (R260), the ticks (R265, R266), one host-loop
iteration as a whole (`iterate`, R262), and the same loop one atomic transition at a time (`schedule`, which is what
`step` does; assumption 10). -/

namespace Sys2Proof.Machine

/-! ## Periods (R260), in wall-clock ticks -/

/-- `P_I = U / INSTR_HZ`. -/
def State.periodI (s : State) : Nat := s.params.u / s.params.instrHz
/-- `P_T = U / 60`. -/
def State.periodT (s : State) : Nat := s.params.u / Config.timerHz
/-- `P_R = U / 60`, a period of its own though equal to `P_T` (R267). -/
def State.periodR (s : State) : Nat := s.params.u / Config.frameHz

/-! ## The ticks -/

/-- `decrementIfPositive()` (R265). -/
def decrementIfPositive (b : Byte) : Byte := if 0 < b.toNat then b - 1 else b

/-- `TimerTick()` (R265). -/
def State.timerTick (s : State) : State := (s.setDt (decrementIfPositive s.dt)).setSt (decrementIfPositive s.st)

/-- `RenderTick()` (R266): the frame that is handed off, and the state, which it does not change. -/
def State.renderTick (s : State) : Frame × State := (s.fb, s)

/-! ## The units of work, each with its period taken off its accumulator first (R263) -/

/-- The opening of `Iterate(now)` (R262): the elapsed time goes into all three accumulators. The load port closes (R73). -/
def State.beginIterate (s : State) (now : Nat) : State :=
  { s with
    lastTime := now
    accI := s.accI + (now - s.lastTime)
    accT := s.accT + (now - s.lastTime)
    accR := s.accR + (now - s.lastTime)
    loadOpen := false }

/-- `acc_i <- acc_i - P_I ; Step()`. -/
def State.instructionCycle (s : State) : Result := instructionStep { s with accI := s.accI - s.periodI }

/-- `acc_t <- acc_t - P_T ; TimerTick()`. -/
def State.timerCycle (s : State) : State := State.timerTick { s with accT := s.accT - s.periodT }

/-- `acc_r <- acc_r - P_R ; RenderTick()`. -/
def State.renderCycle (s : State) : Frame × State := State.renderTick { s with accR := s.accR - s.periodR }

/-! ## One host-loop iteration (R262) -/

/-- The instruction drain, at most `n` units of work. -/
def drainSteps : Nat → State → Result
  | 0, s => .next s
  | n + 1, s =>
    if s.halted = false ∧ s.periodI ≤ s.accI then
      match s.instructionCycle with
      | .next t => drainSteps n t
      | .fault r => .fault r
      | .refused r => .refused r
    else .next s

/-- The timer drain. -/
def drainTimers : Nat → State → State
  | 0, s => s
  | n + 1, s => if s.halted = false ∧ s.periodT ≤ s.accT then drainTimers n s.timerCycle else s

/-- The render drain, with the frames handed off, the first one first. -/
def drainRenders : Nat → State → List Frame × State
  | 0, s => ([], s)
  | n + 1, s =>
    if s.halted = false ∧ s.periodR ≤ s.accR then
      (s.renderCycle.1 :: (drainRenders n s.renderCycle.2).1, (drainRenders n s.renderCycle.2).2)
    else ([], s)

/-- What an iteration leaves: the frames it handed off and the state. -/
structure Iterated where
  frames : List Frame
  state : State
  deriving DecidableEq, Repr

/-- The timer drain and then the render drain, after the instruction drain (R263). -/
def State.drainTicks (s : State) : Iterated :=
  let t := drainTimers (s.accT / s.periodT) s
  ⟨(drainRenders (t.accR / t.periodR) t).1, (drainRenders (t.accR / t.periodR) t).2⟩

/-- `Iterate(now)` (R262, R268, R261): on a halted machine nothing; a `now` before the last sample is refused. A drain
whose accumulator is `a` and whose period is `P` ends after `a / P` units of work. -/
def iterate (now : Nat) (s : State) : Host.Outcome Iterated Fault Refusal :=
  if s.halted = true then .next ⟨[], s⟩
  else if now < s.lastTime then .refused .clockWentBack
  else if s.params.wellFormed then
    match drainSteps ((s.beginIterate now).accI / s.periodI) (s.beginIterate now) with
    | .next t => .next t.drainTicks
    | .fault r => .fault r
    | .refused r => .refused r
  else .fault .noExactPeriods

/-! ## The same loop, one atomic transition at a time -/

/-- The transitions of R12 that a host-loop iteration is made of. -/
inductive Transition where
  /-- the opening of the next `Iterate`: the wall clock is sampled -/
  | beginIterate
  /-- `Step` -/
  | step
  /-- `TimerTick` -/
  | timerTick
  /-- `RenderTick`, the event `frame_valid` -/
  | renderTick
  deriving DecidableEq, Repr

/-- The transition that comes next: instruction drain before timer drain before render drain, and when all three are
done the next iteration (R262, R263; D16, the spec's decision, assumption 15). -/
def State.due (s : State) : Transition :=
  if s.periodI ≤ s.accI then .step
  else if s.periodT ≤ s.accT then .timerTick
  else if s.periodR ≤ s.accR then .renderTick
  else .beginIterate

/-- The next atomic transition of a machine whose host keeps calling `Iterate`. A halted machine stays as it is (R268). -/
def schedule (s : State) : Result :=
  if s.halted = true then .next s
  else if s.params.wellFormed then
    match s.due with
    | .step => s.instructionCycle
    | .timerTick => .next s.timerCycle
    | .renderTick => .next s.renderCycle.2
    | .beginIterate => .next (s.drawn.beginIterate s.clockNow)
  else .fault .noExactPeriods

/-- The frame that presentation receives in the next transition, if that is a `RenderTick` (R266). -/
def State.frameValid (s : State) : Option Frame :=
  if s.halted = false ∧ s.due = .renderTick then some s.renderCycle.1 else none

/-- The state in which the next transition is the `Step` that fetches at `pc`: not halted and one instruction period due.
It stands for the host's loading of a program and its call of `Iterate` (assumption 24). -/
def State.makeStepDue (s : State) : State := { s with halted := false, accI := max s.accI s.periodI }

end Sys2Proof.Machine
end

