-- ==== Sys2Proof/Machine/Step.lean ====
section
/-! DEFINITION. `step`, the next atomic transition of the machine under a host that keeps calling `Iterate`, and the
placing of an instruction for the next fetch. -/

namespace Sys2Proof.Machine

/-- One atomic transition (00_scope.md R12). -/
def step (s : State) : Host.Outcome State Fault Refusal := schedule s

/-- `s` with an instruction of `nbits` bits where the next fetch reads it, and that fetch due at once. -/
def State.withFetchWord (s : State) (nbits w : Nat) : State := (s.placeWord (tableWord nbits w)).makeStepDue

end Sys2Proof.Machine
end

