-- ==== Sys2Proof/Safety.lean ====
section
/-! DEFINITION. The terms in which claims are made: what a transition leaves unchanged, what a fault leaves, which pixels a
sprite covers, and the invariants of the machine. -/

namespace Sys2Proof.Safety

open Sys2Proof.Machine

/-! ## Frames -/

/-- The pieces of the state other than `pc`, each as a reader of the machine sees it: a byte of memory is what a read of
it gives. -/
inductive Piece where
  /-- `V[r]` -/
  | reg (r : Reg)
  /-- `I` -/
  | index
  /-- `DT` -/
  | delayTimer
  /-- `ST` -/
  | soundTimer
  /-- `SP` -/
  | stackDepth
  /-- `stack[k]` -/
  | stackSlot (k : Fin 16)
  /-- `disp[r][c]` -/
  | pixel (r : Fin 32) (c : Fin 64)
  /-- `mem[a]` -/
  | byte (a : Nat)
  /-- the three accumulators and `last_time` -/
  | scheduler
  /-- `halted` and the fault record -/
  | faultRecord
  /-- the parameters of R7 (the model's own field) -/
  | parameters
  /-- whether the load port is open (the model's own field) -/
  | loadPort
  /-- the counter of free inputs (the model's own field) -/
  | draws

/-- The piece is the same in both states. -/
def Piece.Same (s t : State) : Piece → Prop
  | .reg r => t.getV r = s.getV r
  | .index => t.i = s.i
  | .delayTimer => t.dt = s.dt
  | .soundTimer => t.st = s.st
  | .stackDepth => t.sp = s.sp
  | .stackSlot k => t.slot k = s.slot k
  | .pixel r c => t.pixel r c = s.pixel r c
  | .byte a => t.byteAt a = s.byteAt a
  | .scheduler => t.accI = s.accI ∧ t.accT = s.accT ∧ t.accR = s.accR ∧ t.lastTime = s.lastTime
  | .faultRecord => t.halted = s.halted ∧ t.fault = s.fault
  | .parameters => t.params = s.params
  | .loadPort => t.loadOpen = s.loadOpen
  | .draws => t.draws = s.draws

/-- From `s` to `t` nothing changes but `pc` and the pieces that `written` names. -/
def ChangesOnly (s t : State) (written : Piece → Prop) : Prop := ∀ p, ¬ written p → p.Same s t

/-- `t` is `s` after fault entry (60_exceptions.md R303): the record is written, the machine is halted, `pc` is still at
the instruction, and nothing else changes. -/
def FaultsWith (s t : State) (code : FaultCode) (op : Word) (addr : Nat) : Prop :=
  t.halted = true ∧ t.fault = ⟨code, s.pc, op, addr⟩ ∧ t.pc = s.pc ∧ ChangesOnly s t (· = .faultRecord)

/-! ## Which instructions write which piece (40_step_cycle.md R126; 10_state.md R21, R22, R25, R26, R27) -/

/-- ANNN, FX1E, FX29 (R22). -/
def writesIndex : Instr → Bool
  | .ldI _ | .addI _ | .ldFont _ => true
  | _ => false

/-- FX33, FX55 (20_memory.md R60). -/
def writesMemory : Instr → Bool
  | .ldBcd _ | .dump _ => true
  | _ => false

/-- 00E0, DXYN (R27). -/
def writesDisplay : Instr → Bool
  | .cls | .drw _ _ _ => true
  | _ => false

/-- 2NNN, 00EE (R25). -/
def writesStack : Instr → Bool
  | .call _ | .ret => true
  | _ => false

/-- 8XY4, 8XY5, 8XY6, 8XY7, 8XYE, DXYN: `VF` is written whatever `X` is (R21). -/
def writesFlag : Instr → Bool
  | .addReg _ _ | .subReg _ _ | .shr _ _ | .subnReg _ _ | .shl _ _ | .drw _ _ _ => true
  | _ => false

/-- The instructions that have `VX` as a destination, with that `X`; FX65 writes all of `V0..VX` (R20). -/
def destination : Instr → Option Reg
  | .ldImm x _ | .addImm x _ | .ldReg x _ | .orReg x _ | .andReg x _ | .xorReg x _ | .addReg x _ | .subReg x _
  | .shr x _ | .subnReg x _ | .shl x _ | .rnd x _ | .ldFromDt x | .ldKey x | .load x => some x
  | _ => none

/-- Whether `V[r]` is a destination: FX65 has the run `V0..VX`, a flag-setting instruction has `VF` besides its `VX`, and no
other instruction more than the `VX` of `destination` (R20, R21). -/
def writesRegister (i : Instr) (r : Reg) : Bool :=
  match i with
  | .load x => decide (r ≤ x)
  | _ => decide (destination i = some r) || (writesFlag i && decide (r = vf))

/-- The instructions that take a free input: EX9E, EXA1, FX0A a keypad sample, CXNN a random byte
(45_keypad_timers_random.md R237, R238). -/
def takesInput : Instr → Bool
  | .skp _ | .sknp _ | .ldKey _ | .rnd _ _ => true
  | _ => false

/-- The instructions that can fault in their execute phase (60_exceptions.md R301). -/
def canFault : Instr → Bool
  | .ret | .call _ | .ldBcd _ | .drw _ _ _ | .dump _ | .load _ | .skp _ | .sknp _ => true
  | _ => false

/-! ## The sprite (44_display.md R211, R212) -/

/-- Some set bit of the sprite of DXYN lands on the pixel `(r, c)`: bit `7 - j` of row byte `k` lands at row
`(VY + k) mod 32`, column `(VX + j) mod 64`. -/
def Covers (s : State) (x y : Reg) (n : Fin 16) (r : Fin 32) (c : Fin 64) : Prop :=
  ∃ k j : Nat, k < n.val ∧ j < 8 ∧ (s.byteAt (s.indirectBase + k)).getLsbD (7 - j) = true ∧
    r.val = ((s.getV y).toNat + k) % 32 ∧ c.val = ((s.getV x).toNat + j) % 64

/-! ## Runs -/

/-- Executes instructions one after the other, without fetching them. -/
def execAll : List Instr → State → Result
  | [], s => .next s
  | i :: is, s =>
    match exec i s with
    | .next t => execAll is t
    | .fault r => .fault r
    | .refused r => .refused r

/-- `k` steps of the machine. -/
def runSteps (k : Nat) (s : State) : Result := Sys2Proof.core.run k s

/-! ## Invariants -/

/-- Memory is in canonical form (20_memory.md R60), the parameters meet R7, and the machine is halted exactly when a fault
is recorded (10_state.md R31). -/
def WellFormed (s : State) : Prop :=
  Memory.wf s.params.font s.mem ∧ s.params.wellFormed ∧ (s.halted = true ↔ s.fault.code ≠ .none)

/-- `pc` is at most 0x10FE (10_state.md R23) and no slot of the call stack holds more than 0x1000 (41_flow.md R140). -/
def PcInReach (s : State) : Prop := s.pc.toNat ≤ 0x10FE ∧ ∀ k, (s.slot k).toNat ≤ 0x1000

/-- The timer and the render accumulator in step with each other (47_scheduler.md R267): congruent modulo their common
period, the render accumulator never behind, and equal while instructions are due. -/
def Lockstep (s : State) : Prop :=
  s.accT ≤ s.accR ∧ s.accT % s.periodT = s.accR % s.periodR ∧ (s.periodI ≤ s.accI → s.accT = s.accR)

end Sys2Proof.Safety
end

