-- ==== Sys2Proof/Certificates/Slice0/Obligations.lean ====
section
/-! DEFINITION. The statements for the provers. Each docstring names the rules of spec/ that the statement formalises, or
says that it rests on a decision of the spec's own or on a choice of the model. -/

open Sys2Proof Sys2Proof.Machine Sys2Proof.Safety

/-! ## Encoding -/

/-- Every well-formed instruction is read back from its word, and from the word's two bytes, high byte first
(R91, R92, R95, R65). -/
def Obligations.DecodeInvertsEncode : Prop :=
  ∀ i : Instr, i.wellFormed = true →
    decode (encode i) = .ok i ∧ decodeBytes (highByte (encode i)) (lowByte (encode i)) = .ok i

/-- A word that is an instruction is the word of that instruction, and the instruction is well-formed: no bit of an assigned word
is dropped (R91, R95). -/
def Obligations.EncodeInvertsDecode : Prop :=
  ∀ (op : Word) (i : Instr), decode op = .ok i → encode i = op ∧ i.wellFormed = true

/-- The decoder selects by `op AND mask = match` (R94, R99): the instruction it answers stands in a row that selects the
word, and it rejects exactly the words that no row selects. -/
def Obligations.DecodeFollowsOpcodeMap : Prop :=
  (∀ (op : Word) (i : Instr), decode op = .ok i → (opRow i).Selects op ∧ opRow i ∈ opcodeMap) ∧
  (∀ op : Word, (∃ f, decode op = .error f) ↔ ∀ r ∈ opcodeMap, ¬ r.Selects op)

/-- There are 34 rows and no word is selected by two of them (R94). -/
def Obligations.OpcodeRowsAreDisjoint : Prop :=
  opcodeMap.length = 34 ∧ ∀ op : Word, opcodeMap.Pairwise fun r q => ¬ (r.Selects op ∧ q.Selects op)

/-- The unrecognised words, family by family as R96 lists them; families 0, 5 and 9 by the spec's resolutions C5 and C6. -/
def Obligations.UnrecognisedWordsByFamily : Prop :=
  ∀ op : Word,
    (decode op = .error .family0 ↔ op.toNat < 0x1000 ∧ op.toNat ≠ 0x0E0 ∧ op.toNat ≠ 0x0EE) ∧
    (decode op = .error .family5 ↔ op.toNat / 0x1000 = 5 ∧ op.toNat % 16 ≠ 0) ∧
    (decode op = .error .family8 ↔ op.toNat / 0x1000 = 8 ∧ 8 ≤ op.toNat % 16 ∧ op.toNat % 16 ≠ 0xE) ∧
    (decode op = .error .family9 ↔ op.toNat / 0x1000 = 9 ∧ op.toNat % 16 ≠ 0) ∧
    (decode op = .error .familyE ↔ op.toNat / 0x1000 = 0xE ∧ op.toNat % 256 ∉ [0x9E, 0xA1]) ∧
    (decode op = .error .familyF ↔
      op.toNat / 0x1000 = 0xF ∧ op.toNat % 256 ∉ [0x07, 0x0A, 0x15, 0x18, 0x1E, 0x29, 0x33, 0x55, 0x65])

/-- A few words, written out from the patterns of R95, decode to the instructions they stand for. -/
def Obligations.SampleWordsDecode : Prop :=
  decode 0x00E0 = .ok .cls ∧ decode 0x00EE = .ok .ret ∧ decode 0x2300 = .ok (.call 0x300) ∧
  decode 0x4211 = .ok (.sneImm 2 0x11) ∧ decode 0x8AB4 = .ok (.addReg 0xA 0xB) ∧ decode 0xA300 = .ok (.ldI 0x300) ∧
  decode 0xC30F = .ok (.rnd 3 0x0F) ∧ decode 0xD7A5 = .ok (.drw 7 0xA 5) ∧ decode 0xE59E = .ok (.skp 5) ∧
  decode 0xF30A = .ok (.ldKey 3) ∧ decode 0xF265 = .ok (.load 2) ∧ decode 0x01E0 = .error .family0

/-! ## Reset, the step, the scheduler -/

/-- What `Reset(now)` leaves, from any state (R340, R35). The lines on the scheduler, `halted` and the fault record are the
spec's decisions D2 and D18; that the load port opens is the model's field for D23 (assumption 9). -/
def Obligations.ResetLeavesStatedValues : Prop :=
  ∀ (s : State) (p : Params) (now : Nat),
    let t := s.hostReset p now
    (∀ r, t.getV r = 0) ∧ t.i = 0 ∧ t.pc = 0x200 ∧ t.sp.val = 0 ∧ (∀ k, t.slot k = 0) ∧ t.dt = 0 ∧ t.st = 0 ∧
    (∀ r c, t.pixel r c = false) ∧ (∀ k : Fin 80, t.byteAt k.val = p.font.get k) ∧
    (∀ a, 80 ≤ a → t.byteAt a = 0) ∧
    t.accI = 0 ∧ t.accT = 0 ∧ t.accR = 0 ∧ t.lastTime = now ∧ t.halted = false ∧ t.fault = ⟨.none, 0, 0, 0⟩ ∧
    t.params = p ∧ t.loadOpen = true

/-- When an instruction period is due and the bytes at `pc` decode to `i`, `step` is `exec i`, with one period taken off
the instruction accumulator (R121, R262; the step-wise view is assumption 10). -/
def Obligations.StepRunsDecodedInstruction : Prop :=
  ∀ (s : State) (i : Instr), s.halted = false → s.params.wellFormed → s.periodI ≤ s.accI → s.pc.toNat + 1 ≤ 0xFFF →
    decodeBytes (s.byteAt s.pc.toNat) (s.byteAt (s.pc.toNat + 1)) = .ok i →
    step s = exec i { s with accI := s.accI - s.periodI }

/-- An unrecognised word only advances `pc` (R250; families 0, 5 and 9 by C5 and C6, assumption 14). -/
def Obligations.StepPassesUnrecognisedWord : Prop :=
  ∀ (s : State) (f : Unrecognised), s.halted = false → s.params.wellFormed → s.periodI ≤ s.accI →
    s.pc.toNat + 1 ≤ 0xFFF → decodeBytes (s.byteAt s.pc.toNat) (s.byteAt (s.pc.toNat + 1)) = .error f →
    ∃ t, step s = .next t ∧ t.pc = s.pc + 2 ∧ t.halted = false ∧ t.accI = s.accI - s.periodI ∧ t.accT = s.accT ∧
      t.accR = s.accR ∧ t.lastTime = s.lastTime ∧ ChangesOnly s t (· = .scheduler)

/-- A fetch outside memory faults with code 4, word 0 and the first address that does not exist (R120, R300: the spec's
decisions D3, D4, D5). -/
def Obligations.FetchOutsideMemoryFaults : Prop :=
  ∀ s : State, s.halted = false → s.params.wellFormed → s.periodI ≤ s.accI → 0xFFF ≤ s.pc.toNat →
    ∃ t, step s = .next t ∧
      FaultsWith { s with accI := s.accI - s.periodI } t .fetchRange 0
        (if 0xFFF < s.pc.toNat then s.pc.toNat else 0x1000)

/-- A halted machine stays as it is, in `step` and in `Iterate` (R268: the spec's decision D17). -/
def Obligations.HaltedMachineStays : Prop :=
  ∀ (s : State) (now : Nat), s.halted = true → step s = .next s ∧ iterate now s = .next ⟨[], s⟩

/-- Which transition `step` takes when no instruction is due: a timer tick, else a render tick, else the opening of the
next iteration, whose clock sample is a free value not before the last one (R262, R263: the spec's decision D16;
assumptions 7 and 10). A render tick hands off the frame of the state it finds and changes only its accumulator
(R266: D25); the frame of the next transition is the model's function (assumption 20). The opening of an iteration counts
the sample taken (assumption 8) and closes the load port (R73: D23; assumption 9), two fields of the model's own. -/
def Obligations.StepDrainsThenIterates : Prop :=
  ∀ s : State, s.halted = false → s.params.wellFormed → s.accI < s.periodI →
    (s.periodT ≤ s.accT → s.frameValid = none ∧
      step s = .next ({ s with accT := s.accT - s.periodT } : State).timerTick) ∧
    (s.accT < s.periodT → s.periodR ≤ s.accR → s.frameValid = some s.fb ∧
      step s = .next { s with accR := s.accR - s.periodR }) ∧
    (s.accT < s.periodT → s.accR < s.periodR → s.frameValid = none ∧
      step s = .next { s with
        lastTime := s.lastTime + Config.freeClockAdvance s.draws
        accI := s.accI + Config.freeClockAdvance s.draws
        accT := s.accT + Config.freeClockAdvance s.draws
        accR := s.accR + Config.freeClockAdvance s.draws
        draws := s.draws + 1
        loadOpen := false })

/-! ## Faults as a whole -/

/-- A fault is precise: whatever instruction raises it, the record names it and nothing else changes (R303, R302: the
spec's decisions D2, D3, D4). -/
def Obligations.FaultEntryIsPrecise : Prop :=
  ∀ (i : Instr) (s t : State), exec i s = .next t → s.halted = false → t.halted = true →
    t.fault.code ≠ .none ∧ FaultsWith s t t.fault.code (encode i) t.fault.addr

/-- Only 00EE, 2NNN, FX33, DXYN, FX55, FX65, EX9E and EXA1 can fault in their execute phase; every other instruction
advances or moves `pc` and leaves the fault record alone (R301, derived by the spec). -/
def Obligations.OtherInstructionsNeverFault : Prop :=
  ∀ (i : Instr) (s : State), canFault i = false →
    ∃ t, exec i s = .next t ∧ t.halted = s.halted ∧ t.fault = s.fault

/-! ## Control transfer -/

/-- 00EE with an entry on the stack (R140). -/
def Obligations.ReturnPopsAddress : Prop :=
  ∀ s : State, 0 < s.sp.val →
    ∃ t, exec .ret s = .next t ∧ t.sp.val + 1 = s.sp.val ∧
      (∀ k : Fin 16, k.val + 1 = s.sp.val → t.pc = s.slot k) ∧ ChangesOnly s t (· = .stackDepth)

/-- 00EE on an empty stack faults (R140; the record is the spec's decision D4). -/
def Obligations.ReturnOnEmptyStackFaults : Prop :=
  ∀ s : State, s.sp.val = 0 → ∃ t, exec .ret s = .next t ∧ FaultsWith s t .stackUnderflow 0x00EE 0

/-- 1NNN (R141): `pc` becomes `NNN`, nothing else changes, and a jump to itself leaves the state as it found it. -/
def Obligations.JumpGoesToAddress : Prop :=
  ∀ (s : State) (nnn : Word),
    (isAddress12 nnn → decode (wordA 0x1 nnn) = .ok (.jp nnn)) ∧
    ∃ t, exec (.jp nnn) s = .next t ∧ t.pc = nnn ∧ ChangesOnly s t (fun _ => False) ∧ (nnn = s.pc → t = s)

/-- 2NNN with a free slot (R142): the pushed address is that of the instruction after the call. -/
def Obligations.CallPushesReturnAddress : Prop :=
  ∀ (s : State) (nnn : Word), s.sp.val < 16 →
    ∃ t, exec (.call nnn) s = .next t ∧ t.pc = nnn ∧ t.sp.val = s.sp.val + 1 ∧
      (∀ k : Fin 16, k.val = s.sp.val → t.slot k = s.pc + 2) ∧
      ChangesOnly s t (fun p => p = .stackDepth ∨ ∃ k : Fin 16, k.val = s.sp.val ∧ p = .stackSlot k)

/-- 2NNN on a full stack faults (R142; the record is the spec's decision D4). -/
def Obligations.CallOnFullStackFaults : Prop :=
  ∀ (s : State) (nnn : Word), s.sp.val = 16 →
    ∃ t, exec (.call nnn) s = .next t ∧ FaultsWith s t .stackOverflow (encode (.call nnn)) 0

/-- BNNN (R143): `NNN + V0`, not reduced to 12 bits (the spec's decision D12). -/
def Obligations.JumpAddsV0 : Prop :=
  ∀ (s : State) (nnn : Word),
    ∃ t, exec (.jpV0 nnn) s = .next t ∧ t.pc.toNat = (nnn.toNat + (s.getV 0).toNat) % 65536 ∧
      ChangesOnly s t (fun _ => False)

/-- 3XNN and 4XNN (R144, R145): the skip adds 2 more (the spec's decision D11). -/
def Obligations.ImmediateSkips : Prop :=
  ∀ (s : State) (x : Reg) (nn : Byte),
    (∃ t, exec (.seImm x nn) s = .next t ∧ t.pc = (if s.getV x = nn then s.pc + 4 else s.pc + 2) ∧
      ChangesOnly s t (fun _ => False)) ∧
    (∃ t, exec (.sneImm x nn) s = .next t ∧ t.pc = (if s.getV x = nn then s.pc + 2 else s.pc + 4) ∧
      ChangesOnly s t (fun _ => False))

/-- 5XY0 and 9XY0 (R146, R147): the skip adds 2 more (the spec's decision D11). -/
def Obligations.RegisterSkips : Prop :=
  ∀ (s : State) (x y : Reg),
    (∃ t, exec (.seReg x y) s = .next t ∧ t.pc = (if s.getV x = s.getV y then s.pc + 4 else s.pc + 2) ∧
      ChangesOnly s t (fun _ => False)) ∧
    (∃ t, exec (.sneReg x y) s = .next t ∧ t.pc = (if s.getV x = s.getV y then s.pc + 2 else s.pc + 4) ∧
      ChangesOnly s t (fun _ => False))

/-- Calls followed by as many returns come back, last in first out, to the instruction after the first call (R148):
whatever the targets, while they fit on the stack; only slots above the entries held at the start are written. -/
def Obligations.CallsThenReturnsComeBack : Prop :=
  ∀ (targets : List Word) (s : State), targets ≠ [] → s.sp.val + targets.length ≤ 16 →
    ∃ t, execAll (targets.map Instr.call ++ List.replicate targets.length Instr.ret) s = .next t ∧
      t.pc = s.pc + 2 ∧ ChangesOnly s t (fun p => ∃ k : Fin 16, s.sp.val ≤ k.val ∧ p = .stackSlot k)

/-! ## Register load and ALU -/

/-- 6XNN (R160): `VX` becomes `NN`, and doing it twice leaves the same registers. -/
def Obligations.LoadImmediate : Prop :=
  ∀ (s : State) (x : Reg) (nn : Byte),
    decode (wordXI 0x6 x nn) = .ok (.ldImm x nn) ∧
    ∃ t, exec (.ldImm x nn) s = .next t ∧ t.getV x = nn ∧ t.pc = s.pc + 2 ∧ ChangesOnly s t (· = .reg x) ∧
      ∃ u, exec (.ldImm x nn) t = .next u ∧ ∀ r, u.getV r = t.getV r

/-- 7XNN (R161): the sum mod 256, no flag. -/
def Obligations.AddImmediateWraps : Prop :=
  ∀ (s : State) (x : Reg) (nn : Byte),
    decode (wordXI 0x7 x nn) = .ok (.addImm x nn) ∧
    ∃ t, exec (.addImm x nn) s = .next t ∧ (t.getV x).toNat = ((s.getV x).toNat + nn.toNat) % 256 ∧ t.pc = s.pc + 2 ∧
      ChangesOnly s t (· = .reg x)

/-- 8XY0, 8XY1, 8XY2, 8XY3 (R162 to R165): copy, OR, AND, XOR bit by bit, and `VF` is no flag of theirs. -/
def Obligations.CopyAndLogic : Prop :=
  ∀ (s : State) (x y : Reg),
    decode (wordXY 0x8 x y 0x0) = .ok (.ldReg x y) ∧ decode (wordXY 0x8 x y 0x1) = .ok (.orReg x y) ∧
    decode (wordXY 0x8 x y 0x2) = .ok (.andReg x y) ∧ decode (wordXY 0x8 x y 0x3) = .ok (.xorReg x y) ∧
    (∃ t, exec (.ldReg x y) s = .next t ∧ t.getV x = s.getV y ∧ t.pc = s.pc + 2 ∧ ChangesOnly s t (· = .reg x)) ∧
    (∃ t, exec (.orReg x y) s = .next t ∧
      (∀ j, (t.getV x).getLsbD j = ((s.getV x).getLsbD j || (s.getV y).getLsbD j)) ∧
      t.pc = s.pc + 2 ∧ ChangesOnly s t (· = .reg x)) ∧
    (∃ t, exec (.andReg x y) s = .next t ∧
      (∀ j, (t.getV x).getLsbD j = ((s.getV x).getLsbD j && (s.getV y).getLsbD j)) ∧
      t.pc = s.pc + 2 ∧ ChangesOnly s t (· = .reg x)) ∧
    (∃ t, exec (.xorReg x y) s = .next t ∧
      (∀ j, (t.getV x).getLsbD j = ((s.getV x).getLsbD j != (s.getV y).getLsbD j)) ∧
      t.pc = s.pc + 2 ∧ ChangesOnly s t (· = .reg x))

/-- 8XY4 (R166): sum mod 256, then the carry in `VF`, also when `VX` is `VF`. -/
def Obligations.AddSetsCarry : Prop :=
  ∀ (s : State) (x y : Reg),
    decode (wordXY 0x8 x y 0x4) = .ok (.addReg x y) ∧
    ∃ t, exec (.addReg x y) s = .next t ∧
      (x ≠ vf → (t.getV x).toNat = ((s.getV x).toNat + (s.getV y).toNat) % 256) ∧
      t.getV vf = (if (s.getV x).toNat + (s.getV y).toNat > 255 then 1 else 0) ∧
      t.pc = s.pc + 2 ∧ ChangesOnly s t (fun p => p = .reg x ∨ p = .reg vf)

/-- 8XY5 (R167): `VX - VY` mod 256, then `VF` = 1 exactly when `VX` was strictly greater. -/
def Obligations.SubtractSetsNoBorrow : Prop :=
  ∀ (s : State) (x y : Reg),
    decode (wordXY 0x8 x y 0x5) = .ok (.subReg x y) ∧
    ∃ t, exec (.subReg x y) s = .next t ∧
      (x ≠ vf → ((t.getV x).toNat : Int) = (((s.getV x).toNat : Int) - (s.getV y).toNat) % 256) ∧
      t.getV vf = (if (s.getV x).toNat > (s.getV y).toNat then 1 else 0) ∧
      t.pc = s.pc + 2 ∧ ChangesOnly s t (fun p => p = .reg x ∨ p = .reg vf)

/-- 8XY7 (R169): `VY - VX` mod 256, then `VF` = 1 exactly when `VY` was strictly greater than the old `VX`. -/
def Obligations.ReverseSubtractSetsNoBorrow : Prop :=
  ∀ (s : State) (x y : Reg),
    decode (wordXY 0x8 x y 0x7) = .ok (.subnReg x y) ∧
    ∃ t, exec (.subnReg x y) s = .next t ∧
      (x ≠ vf → ((t.getV x).toNat : Int) = (((s.getV y).toNat : Int) - (s.getV x).toNat) % 256) ∧
      t.getV vf = (if (s.getV y).toNat > (s.getV x).toNat then 1 else 0) ∧
      t.pc = s.pc + 2 ∧ ChangesOnly s t (fun p => p = .reg x ∨ p = .reg vf)

/-- 8XY6 (R168): `VY` under the shift quirk, else `VX`, halved; then the bit shifted out in `VF`. -/
def Obligations.ShiftRightSetsLowBit : Prop :=
  ∀ (s : State) (x y : Reg),
    decode (wordXY 0x8 x y 0x6) = .ok (.shr x y) ∧
    ∃ t, exec (.shr x y) s = .next t ∧
      (x ≠ vf → (t.getV x).toNat = (if s.params.quirkShift then s.getV y else s.getV x).toNat / 2) ∧
      (t.getV vf).toNat = (if s.params.quirkShift then s.getV y else s.getV x).toNat % 2 ∧
      t.pc = s.pc + 2 ∧ ChangesOnly s t (fun p => p = .reg x ∨ p = .reg vf)

/-- 8XYE (R170): `VY` under the shift quirk, else `VX`, doubled mod 256; then the bit shifted out in `VF`. -/
def Obligations.ShiftLeftSetsHighBit : Prop :=
  ∀ (s : State) (x y : Reg),
    decode (wordXY 0x8 x y 0xE) = .ok (.shl x y) ∧
    ∃ t, exec (.shl x y) s = .next t ∧
      (x ≠ vf → (t.getV x).toNat = (if s.params.quirkShift then s.getV y else s.getV x).toNat * 2 % 256) ∧
      (t.getV vf).toNat = (if s.params.quirkShift then s.getV y else s.getV x).toNat / 128 ∧
      t.pc = s.pc + 2 ∧ ChangesOnly s t (fun p => p = .reg x ∨ p = .reg vf)

/-! ## Index register and memory -/

/-- ANNN (R190). -/
def Obligations.LoadIndex : Prop :=
  ∀ (s : State) (nnn : Word),
    (isAddress12 nnn → decode (wordA 0xA nnn) = .ok (.ldI nnn)) ∧
    ∃ t, exec (.ldI nnn) s = .next t ∧ t.i = nnn ∧ t.pc = s.pc + 2 ∧ ChangesOnly s t (· = .index)

/-- FX1E (R191): the sum mod 65536, and `VF` is not written. -/
def Obligations.AddToIndexWraps : Prop :=
  ∀ (s : State) (x : Reg),
    decode (wordXI 0xF x 0x1E) = .ok (.addI x) ∧
    ∃ t, exec (.addI x) s = .next t ∧ t.i.toNat = (s.i.toNat + (s.getV x).toNat) % 65536 ∧ t.pc = s.pc + 2 ∧
      ChangesOnly s t (· = .index)

/-- FX29 (R192): the address of the glyph for the low nibble of `VX`. -/
def Obligations.LoadGlyphAddress : Prop :=
  ∀ (s : State) (x : Reg),
    decode (wordXI 0xF x 0x29) = .ok (.ldFont x) ∧
    ∃ t, exec (.ldFont x) s = .next t ∧ t.i.toNat = 5 * ((s.getV x).toNat % 16) ∧ t.pc = s.pc + 2 ∧
      ChangesOnly s t (· = .index)

/-- FX33 inside memory (R193): the three decimal digits at `I`, `I + 1`, `I + 2`; addresses without wrap are the spec's
decision D6. -/
def Obligations.DecimalDigitsStored : Prop :=
  ∀ (s : State) (x : Reg), s.indirectBase + 2 ≤ 0xFFF →
    ∃ t, exec (.ldBcd x) s = .next t ∧
      (t.byteAt s.indirectBase).toNat = (s.getV x).toNat / 100 ∧
      (t.byteAt (s.indirectBase + 1)).toNat = (s.getV x).toNat / 10 % 10 ∧
      (t.byteAt (s.indirectBase + 2)).toNat = (s.getV x).toNat % 10 ∧ t.pc = s.pc + 2 ∧
      ChangesOnly s t (fun p => ∃ k < 3, p = .byte (s.indirectBase + k))

/-- FX55 inside memory (R194): `V0..VX` at `I..I+X`; `I` is unchanged (the spec's decision D27). -/
def Obligations.RegistersDumped : Prop :=
  ∀ (s : State) (x : Reg), s.indirectBase + x.val ≤ 0xFFF →
    ∃ t, exec (.dump x) s = .next t ∧ (∀ r : Reg, r ≤ x → t.byteAt (s.indirectBase + r.val) = s.getV r) ∧
      t.pc = s.pc + 2 ∧ ChangesOnly s t (fun p => ∃ r : Reg, r ≤ x ∧ p = .byte (s.indirectBase + r.val))

/-- FX65 inside memory (R195): `I..I+X` into `V0..VX`; `I` is unchanged (the spec's decision D27). -/
def Obligations.RegistersLoaded : Prop :=
  ∀ (s : State) (x : Reg), s.indirectBase + x.val ≤ 0xFFF →
    ∃ t, exec (.load x) s = .next t ∧ (∀ r : Reg, r ≤ x → t.getV r = s.byteAt (s.indirectBase + r.val)) ∧
      t.pc = s.pc + 2 ∧ ChangesOnly s t (fun p => ∃ r : Reg, r ≤ x ∧ p = .reg r)

/-- FX55 and, with that memory and that `I`, FX65 restore the registers dumped (R195, property S3). -/
def Obligations.DumpThenLoadRestores : Prop :=
  ∀ (s : State) (x : Reg), s.indirectBase + x.val ≤ 0xFFF →
    ∃ t, exec (.dump x) s = .next t ∧
      ∀ u : State, u.i = t.i → (∀ a, u.byteAt a = t.byteAt a) →
        ∃ w, exec (.load x) u = .next w ∧ ∀ r : Reg, r ≤ x → w.getV r = s.getV r

/-- FX33, FX55, FX65 and DXYN whose run of bytes passes 0xFFF fault before any effect, with the first address that does
not exist (R193, R194, R195, R211, R300: the spec's decisions D3 to D6). -/
def Obligations.RunOutsideMemoryFaults : Prop :=
  ∀ (s : State) (x y : Reg) (n : Fin 16),
    let first := if 0xFFF < s.indirectBase then s.indirectBase else 0x1000
    (0xFFF < s.indirectBase + 2 →
      ∃ t, exec (.ldBcd x) s = .next t ∧ FaultsWith s t .bcdRange (encode (.ldBcd x)) first) ∧
    (0xFFF < s.indirectBase + x.val →
      (∃ t, exec (.dump x) s = .next t ∧ FaultsWith s t .dataRange (encode (.dump x)) first) ∧
      (∃ t, exec (.load x) s = .next t ∧ FaultsWith s t .dataRange (encode (.load x)) first)) ∧
    (0 < n.val → 0xFFF < s.indirectBase + n.val - 1 →
      ∃ t, exec (.drw x y n) s = .next t ∧ FaultsWith s t .dataRange (encode (.drw x y n)) first)

/-! ## Display -/

/-- 00E0 (R210): all 2048 pixels 0, `VF` not written. -/
def Obligations.ClearScreen : Prop :=
  decode 0x00E0 = .ok .cls ∧
  ∀ s : State, ∃ t, exec .cls s = .next t ∧ (∀ r c, t.pixel r c = false) ∧ t.pc = s.pc + 2 ∧
    ChangesOnly s t (fun p => ∃ r c, p = .pixel r c)

/-- DXYN (R211, R212): the two loops of the renderer XOR exactly the pixels under set sprite bits, with wrap, and `VF` tells
whether one of them was set before; no rows, no access. Bit 7 leftmost is the spec's decision D8 (assumption 13). -/
def Obligations.DrawXorsSprite : Prop :=
  ∀ (s : State) (x y : Reg) (n : Fin 16), (n.val = 0 ∨ s.indirectBase + n.val - 1 ≤ 0xFFF) →
    ∃ t, exec (.drw x y n) s = .next t ∧
      (∀ r c, Covers s x y n r c → t.pixel r c = !s.pixel r c) ∧
      (∀ r c, ¬ Covers s x y n r c → t.pixel r c = s.pixel r c) ∧
      ((∃ r c, Covers s x y n r c ∧ s.pixel r c = true) → t.getV vf = 1) ∧
      ((∀ r c, Covers s x y n r c → s.pixel r c = false) → t.getV vf = 0) ∧
      t.pc = s.pc + 2 ∧ ChangesOnly s t (fun p => p = .reg vf ∨ ∃ r c, p = .pixel r c)

/-- Drawing the same sprite twice at the same place restores every pixel, and the second `VF` is 1 exactly when a covered
pixel was 0 before the first draw (R212 (f), by the spec's resolution C11). `VX` and `VY` must not be `VF`, which the
first draw changes. -/
def Obligations.DrawTwiceRestores : Prop :=
  ∀ (s : State) (x y : Reg) (n : Fin 16), x ≠ vf → y ≠ vf → (n.val = 0 ∨ s.indirectBase + n.val - 1 ≤ 0xFFF) →
    ∃ t u, exec (.drw x y n) s = .next t ∧ exec (.drw x y n) t = .next u ∧
      (∀ r c, u.pixel r c = s.pixel r c) ∧
      (u.getV vf = 1 ↔ ∃ r c, Covers s x y n r c ∧ s.pixel r c = false)

/-! ## Keypad, timers, random -/

/-- EX9E and EXA1 on a key index of at most 0xF (R230, R231): the sample is a free value, one is taken (assumptions 5
and 8); the skip distance is the spec's decision D11. -/
def Obligations.KeySkips : Prop :=
  ∀ (s : State) (x : Reg), (s.getV x).toNat ≤ 0xF →
    (∃ t, exec (.skp x) s = .next t ∧ t.draws = s.draws + 1 ∧
      t.pc = (if (Config.freeKeys s.draws).getLsbD (s.getV x).toNat then s.pc + 4 else s.pc + 2) ∧
      ChangesOnly s t (· = .draws)) ∧
    (∃ t, exec (.sknp x) s = .next t ∧ t.draws = s.draws + 1 ∧
      t.pc = (if (Config.freeKeys s.draws).getLsbD (s.getV x).toNat then s.pc + 2 else s.pc + 4) ∧
      ChangesOnly s t (· = .draws))

/-- EX9E and EXA1 on a key index above 0xF fault (R230, R231: the spec's decision D7). -/
def Obligations.KeyIndexAboveFFaults : Prop :=
  ∀ (s : State) (x : Reg), 0xF < (s.getV x).toNat →
    (∃ t, exec (.skp x) s = .next t ∧ FaultsWith s t .keyIndex (encode (.skp x)) (s.getV x).toNat) ∧
    (∃ t, exec (.sknp x) s = .next t ∧ FaultsWith s t .keyIndex (encode (.sknp x)) (s.getV x).toNat)

/-- FX0A (R232): on a sample with no key down nothing changes but the count of samples and `pc` stays; otherwise `VX`
becomes the lowest key down. The sample is a free value (assumptions 5 and 8). -/
def Obligations.KeyWaitTakesLowestKey : Prop :=
  ∀ (s : State) (x : Reg),
    ∃ t, exec (.ldKey x) s = .next t ∧ t.draws = s.draws + 1 ∧
      if Config.freeKeys s.draws = 0 then t.pc = s.pc ∧ ChangesOnly s t (· = .draws)
      else
        t.pc = s.pc + 2 ∧ ChangesOnly s t (fun p => p = .draws ∨ p = .reg x) ∧
        (t.getV x).toNat < 16 ∧ (Config.freeKeys s.draws).getLsbD (t.getV x).toNat = true ∧
        ∀ j < (t.getV x).toNat, (Config.freeKeys s.draws).getLsbD j = false

/-- FX07, FX15, FX18 (R233, R234, R235). -/
def Obligations.TimerMoves : Prop :=
  ∀ (s : State) (x : Reg),
    decode (wordXI 0xF x 0x07) = .ok (.ldFromDt x) ∧ decode (wordXI 0xF x 0x15) = .ok (.ldToDt x) ∧
    decode (wordXI 0xF x 0x18) = .ok (.ldToSt x) ∧
    (∃ t, exec (.ldFromDt x) s = .next t ∧ t.getV x = s.dt ∧ t.pc = s.pc + 2 ∧ ChangesOnly s t (· = .reg x)) ∧
    (∃ t, exec (.ldToDt x) s = .next t ∧ t.dt = s.getV x ∧ t.pc = s.pc + 2 ∧ ChangesOnly s t (· = .delayTimer)) ∧
    (∃ t, exec (.ldToSt x) s = .next t ∧ t.st = s.getV x ∧ (t.sndOn = true ↔ 0 < (s.getV x).toNat) ∧ t.pc = s.pc + 2 ∧
      ChangesOnly s t (· = .soundTimer))

/-- CXNN (R236): the random byte, a free value (assumptions 6 and 8), AND `NN`; no bit outside `NN` is set. -/
def Obligations.RandomIsMasked : Prop :=
  ∀ (s : State) (x : Reg) (nn : Byte),
    decode (wordXI 0xC x nn) = .ok (.rnd x nn) ∧
    ∃ t, exec (.rnd x nn) s = .next t ∧ t.getV x = Config.freeRandom s.draws &&& nn ∧ t.getV x &&& ~~~nn = 0 ∧
      t.draws = s.draws + 1 ∧ t.pc = s.pc + 2 ∧ ChangesOnly s t (fun p => p = .draws ∨ p = .reg x)

/-! ## Ticks and the scheduler -/

/-- `TimerTick` (R265): each timer goes down by one while positive and stays at 0, and nothing else changes; after `k`
ticks each has gone down by `k` or reached 0. -/
def Obligations.TimersDecayToZero : Prop :=
  ∀ (s : State) (k : Nat),
    (s.timerTick.dt.toNat = s.dt.toNat - 1 ∧ s.timerTick.st.toNat = s.st.toNat - 1 ∧ s.timerTick.pc = s.pc ∧
      ChangesOnly s s.timerTick (fun p => p = .delayTimer ∨ p = .soundTimer)) ∧
    (State.timerTick^[k] s).dt.toNat = s.dt.toNat - k ∧ (State.timerTick^[k] s).st.toNat = s.st.toNat - k

/-- What an iteration leaves (R262, R264, R266, R267): it completes, and if it does not fault each accumulator holds its
remainder, the clock sample is `now`, and one frame was handed off per render period, all of them the final display. The order of the
drains is the spec's decision D16; that the load port closes is the model's field (assumption 9), and that the frames are a
list in the answer is the model's form of the event `frame_valid` (assumption 20). -/
def Obligations.IterationDrainsAccumulators : Prop :=
  ∀ (s : State) (now : Nat), s.halted = false → s.params.wellFormed → s.lastTime ≤ now →
    ∃ r, iterate now s = .next r ∧ r.state.lastTime = now ∧ r.state.loadOpen = false ∧
      (r.state.halted = false →
        r.state.accI = (s.accI + (now - s.lastTime)) % s.periodI ∧
        r.state.accT = (s.accT + (now - s.lastTime)) % s.periodT ∧
        r.state.accR = (s.accR + (now - s.lastTime)) % s.periodR ∧
        r.frames = List.replicate ((s.accR + (now - s.lastTime)) / s.periodR) r.state.fb)

/-- The steps of the machine are the iterations of the scheduler taken one transition at a time (R262, R264;
assumption 10): from a state between iterations, some number of steps reaches the state that `Iterate` with the same
clock sample leaves, and if the iteration does not fault that number is one for the clock sample and one per period
elapsed on each accumulator. The clock sample is a free value that the draw counter counts (assumptions 7 and 8). -/
def Obligations.StepsRefineIteration : Prop :=
  ∀ s : State, s.halted = false → s.params.wellFormed → s.due = .beginIterate →
    ∃ r, iterate s.clockNow s.drawn = .next r ∧ (∃ k, runSteps (k + 1) s = .next r.state) ∧
      (r.state.halted = false →
        runSteps (1 + (s.accI + (s.clockNow - s.lastTime)) / s.periodI +
            (s.accT + (s.clockNow - s.lastTime)) / s.periodT + (s.accR + (s.clockNow - s.lastTime)) / s.periodR) s =
          .next r.state)

/-- The clock sample never goes back (R261: the spec's decision D15): no step lowers it, its sample being a free advance
(assumption 7), and an `Iterate` with an earlier `now` is refused. -/
def Obligations.ClockNeverGoesBack : Prop :=
  (∀ s t : State, step s = .next t → s.lastTime ≤ t.lastTime) ∧
  (∀ (s : State) (now : Nat), s.halted = false → now < s.lastTime → iterate now s = .refused .clockWentBack)

/-- The invariant of R267, as every single step keeps it: the timer and the render accumulator stay in step. Between
iterations it says that they are equal, which is its last clause. -/
def Obligations.StepKeepsLockstep : Prop :=
  (∀ s t : State, Lockstep s → step s = .next t → Lockstep t) ∧
  (∀ s : State, Lockstep s → s.due = .beginIterate → s.accT = s.accR)

/-! ## Invariants and rules of the whole machine -/

/-- Every step keeps memory canonical, the parameters as they were (R343), and `halted` in agreement with the fault
record (R31). That the parameters are a field of the state is the model's choice (assumption 1). -/
def Obligations.StepKeepsWellFormed : Prop :=
  ∀ s t : State, WellFormed s → step s = .next t → WellFormed t ∧ t.params = s.params

/-- Every step keeps `pc` at most 0x10FE and every stack slot at most 0x1000, so that `pc` never wraps (R23, R140). -/
def Obligations.StepKeepsPcInReach : Prop :=
  ∀ s t : State, PcInReach s → step s = .next t → PcInReach t

/-- The three invariants hold after reset. The values of the parameters and of the clock are the model's (assumptions 1 to 4). -/
def Obligations.ResetMeetsInvariants : Prop :=
  WellFormed State.reset ∧ PcInReach State.reset ∧ Lockstep State.reset

/-- The host's operations meet the invariants too: a reset with parameters that meet R7 gives them from any state (R340), and a
byte taken by the load port keeps them (R73). That neither is part of `step` is the model's choice (assumption 16). -/
def Obligations.HostOperationsKeepInvariants : Prop :=
  (∀ (s : State) (p : Params) (now : Nat), p.wellFormed →
    WellFormed (s.hostReset p now) ∧ PcInReach (s.hostReset p now) ∧ Lockstep (s.hostReset p now)) ∧
  (∀ (s t : State) (a : BitVec 12) (v : Byte), loadByte a v s = .next t →
    (WellFormed s → WellFormed t) ∧ (PcInReach s → PcInReach t) ∧ (Lockstep s → Lockstep t))

/-- Every instruction answers a next state (for the eight of `canFault` it may be the fault entry of R303), and in it every
V register, `I`, memory, the display, the stack, each timer and the fault record are as before unless the instruction is
one the spec names as writing it (R126, R20, R21, R22, R25, R26, R27, R301; 20_memory.md R60); the scheduler's state is
always as before. The draw counter, the parameters and the load port are the model's own fields (assumptions 1, 8, 9). -/
def Obligations.InstructionsWriteOnlyTheirState : Prop :=
  ∀ (i : Instr) (s : State),
    ∃ t, exec i s = .next t ∧ Piece.Same s t .scheduler ∧ Piece.Same s t .parameters ∧ Piece.Same s t .loadPort ∧
      (writesIndex i = false → t.i = s.i) ∧
      (writesMemory i = false → ∀ a, t.byteAt a = s.byteAt a) ∧
      (writesDisplay i = false → ∀ r c, t.pixel r c = s.pixel r c) ∧
      (writesStack i = false → t.sp = s.sp ∧ ∀ k, t.slot k = s.slot k) ∧
      ((∀ x, i ≠ .ldToDt x) → t.dt = s.dt) ∧ ((∀ x, i ≠ .ldToSt x) → t.st = s.st) ∧
      (∀ r, writesRegister i r = false → t.getV r = s.getV r) ∧
      (canFault i = false → Piece.Same s t .faultRecord) ∧
      (takesInput i = false → t.draws = s.draws)

/-! ## Ports -/

/-- The load port (R73: the spec's decision D23): open, it stores the byte at an address from 0x200 on and changes
nothing else; closed, or below 0x200, it refuses; so does an image of more than 3584 bytes. Open or closed is a field of the
model's own (assumption 9). -/
def Obligations.LoadPortStoresOrRefuses : Prop :=
  ∀ (s : State) (a : BitVec 12) (v : Byte) (image : List Byte),
    (s.loadOpen = true → 0x200 ≤ a.toNat →
      ∃ t, loadByte a v s = .next t ∧ t.byteAt a.toNat = v ∧ t.pc = s.pc ∧ ChangesOnly s t (· = .byte a.toNat)) ∧
    (s.loadOpen = true → a.toNat < 0x200 → loadByte a v s = .refused .loadOutsideProgram) ∧
    (s.loadOpen = false → loadByte a v s = .refused .loadPortClosed) ∧
    (3584 < image.length → loadImage image s = .refused .imageTooLong)

/-- The frame port lays pixel `(r, c)` at bit `64 r + c` (R34: the spec's decision D25), `snd_on` is 1 exactly while
`ST > 0`, and `fault_code` shows each recorded fault under its number (R300: the spec's decision D4). -/
def Obligations.PortsShowDisplaySoundAndFault : Prop :=
  ∀ s : State, (∀ (r : Fin 32) (c : Fin 64), s.fb.getLsbD (64 * r.val + c.val) = s.pixel r c) ∧
    (s.sndOn = true ↔ 0 < s.st.toNat) ∧
    (s.faultCode = 0 ↔ s.fault.code = .none) ∧ (s.faultCode = 1 ↔ s.fault.code = .stackOverflow) ∧
    (s.faultCode = 2 ↔ s.fault.code = .stackUnderflow) ∧ (s.faultCode = 3 ↔ s.fault.code = .bcdRange) ∧
    (s.faultCode = 4 ↔ s.fault.code = .fetchRange) ∧ (s.faultCode = 5 ↔ s.fault.code = .dataRange) ∧
    (s.faultCode = 6 ↔ s.fault.code = .keyIndex)

/-- A program image of at most 3584 bytes (R73, R343): through an open load port, byte `k` of it lies at `0x200 + k` and
nothing else changes, and `boot` is that load on the state after reset. That open or closed is a field is the model's
choice (assumption 9; the spec's decision D23), and that neither is part of `step` is assumption 16. -/
def Obligations.ImageLoadsAtProgramBase : Prop :=
  ∀ (s : State) (image : List Byte), image.length ≤ 3584 →
    (s.loadOpen = true →
      ∃ t, loadImage image s = .next t ∧ (∀ (k : Nat) (h : k < image.length), t.byteAt (0x200 + k) = image[k]) ∧
        t.pc = s.pc ∧ ChangesOnly s t (fun p => ∃ k < image.length, p = .byte (0x200 + k))) ∧
    (∀ (p : Params) (now : Nat),
      ∃ t, boot p now image s = .next t ∧ (∀ (k : Nat) (h : k < image.length), t.byteAt (0x200 + k) = image[k]) ∧
        t.pc = 0x200 ∧ ChangesOnly (s.hostReset p now) t (fun q => ∃ k < image.length, q = .byte (0x200 + k)))
end

