-- ==== Sys2Proof/Laws/State.lean ====
section
/-! SUPPORT. One lemma per field per update of the state, true by unfolding the update once, so that no later proof unfolds
it again; and the same for what a reader sees (`getV`, `slot`, `pixel`, `byteAt`). -/

namespace Sys2Proof.Machine.State

/-! ## `setV` -/

@[simp] theorem setV_v (s : State) (x : Reg) (b : Byte) : (s.setV x b).v = s.v.set x.val b x.isLt := rfl
@[simp] theorem setV_i (s : State) (x : Reg) (b : Byte) : (s.setV x b).i = s.i := rfl
@[simp] theorem setV_pc (s : State) (x : Reg) (b : Byte) : (s.setV x b).pc = s.pc := rfl
@[simp] theorem setV_sp (s : State) (x : Reg) (b : Byte) : (s.setV x b).sp = s.sp := rfl
@[simp] theorem setV_stack (s : State) (x : Reg) (b : Byte) : (s.setV x b).stack = s.stack := rfl
@[simp] theorem setV_dt (s : State) (x : Reg) (b : Byte) : (s.setV x b).dt = s.dt := rfl
@[simp] theorem setV_st (s : State) (x : Reg) (b : Byte) : (s.setV x b).st = s.st := rfl
@[simp] theorem setV_disp (s : State) (x : Reg) (b : Byte) : (s.setV x b).disp = s.disp := rfl
@[simp] theorem setV_mem (s : State) (x : Reg) (b : Byte) : (s.setV x b).mem = s.mem := rfl
@[simp] theorem setV_accI (s : State) (x : Reg) (b : Byte) : (s.setV x b).accI = s.accI := rfl
@[simp] theorem setV_accT (s : State) (x : Reg) (b : Byte) : (s.setV x b).accT = s.accT := rfl
@[simp] theorem setV_accR (s : State) (x : Reg) (b : Byte) : (s.setV x b).accR = s.accR := rfl
@[simp] theorem setV_lastTime (s : State) (x : Reg) (b : Byte) : (s.setV x b).lastTime = s.lastTime := rfl
@[simp] theorem setV_halted (s : State) (x : Reg) (b : Byte) : (s.setV x b).halted = s.halted := rfl
@[simp] theorem setV_fault (s : State) (x : Reg) (b : Byte) : (s.setV x b).fault = s.fault := rfl
@[simp] theorem setV_params (s : State) (x : Reg) (b : Byte) : (s.setV x b).params = s.params := rfl
@[simp] theorem setV_draws (s : State) (x : Reg) (b : Byte) : (s.setV x b).draws = s.draws := rfl
@[simp] theorem setV_loadOpen (s : State) (x : Reg) (b : Byte) : (s.setV x b).loadOpen = s.loadOpen := rfl
@[simp] theorem setV_slot (s : State) (x : Reg) (b : Byte) (k : Fin 16) : (s.setV x b).slot k = s.slot k := rfl
@[simp] theorem setV_pixel (s : State) (x : Reg) (b : Byte) (r : Fin 32) (c : Fin 64) : (s.setV x b).pixel r c = s.pixel r c := rfl
@[simp] theorem setV_byteAt (s : State) (x : Reg) (b : Byte) (a : Nat) : (s.setV x b).byteAt a = s.byteAt a := rfl

/-! ## `advance` -/

@[simp] theorem advance_v (s : State) : s.advance.v = s.v := rfl
@[simp] theorem advance_i (s : State) : s.advance.i = s.i := rfl
@[simp] theorem advance_pc (s : State) : s.advance.pc = s.pc + 2 := rfl
@[simp] theorem advance_sp (s : State) : s.advance.sp = s.sp := rfl
@[simp] theorem advance_stack (s : State) : s.advance.stack = s.stack := rfl
@[simp] theorem advance_dt (s : State) : s.advance.dt = s.dt := rfl
@[simp] theorem advance_st (s : State) : s.advance.st = s.st := rfl
@[simp] theorem advance_disp (s : State) : s.advance.disp = s.disp := rfl
@[simp] theorem advance_mem (s : State) : s.advance.mem = s.mem := rfl
@[simp] theorem advance_accI (s : State) : s.advance.accI = s.accI := rfl
@[simp] theorem advance_accT (s : State) : s.advance.accT = s.accT := rfl
@[simp] theorem advance_accR (s : State) : s.advance.accR = s.accR := rfl
@[simp] theorem advance_lastTime (s : State) : s.advance.lastTime = s.lastTime := rfl
@[simp] theorem advance_halted (s : State) : s.advance.halted = s.halted := rfl
@[simp] theorem advance_fault (s : State) : s.advance.fault = s.fault := rfl
@[simp] theorem advance_params (s : State) : s.advance.params = s.params := rfl
@[simp] theorem advance_draws (s : State) : s.advance.draws = s.draws := rfl
@[simp] theorem advance_loadOpen (s : State) : s.advance.loadOpen = s.loadOpen := rfl
@[simp] theorem advance_getV (s : State) (q : Reg) : s.advance.getV q = s.getV q := rfl
@[simp] theorem advance_slot (s : State) (k : Fin 16) : s.advance.slot k = s.slot k := rfl
@[simp] theorem advance_pixel (s : State) (r : Fin 32) (c : Fin 64) : s.advance.pixel r c = s.pixel r c := rfl
@[simp] theorem advance_byteAt (s : State) (a : Nat) : s.advance.byteAt a = s.byteAt a := rfl

/-! ## `skip` -/

@[simp] theorem skip_v (s : State) : s.skip.v = s.v := rfl
@[simp] theorem skip_i (s : State) : s.skip.i = s.i := rfl
@[simp] theorem skip_pc (s : State) : s.skip.pc = s.pc + 2 := rfl
@[simp] theorem skip_sp (s : State) : s.skip.sp = s.sp := rfl
@[simp] theorem skip_stack (s : State) : s.skip.stack = s.stack := rfl
@[simp] theorem skip_dt (s : State) : s.skip.dt = s.dt := rfl
@[simp] theorem skip_st (s : State) : s.skip.st = s.st := rfl
@[simp] theorem skip_disp (s : State) : s.skip.disp = s.disp := rfl
@[simp] theorem skip_mem (s : State) : s.skip.mem = s.mem := rfl
@[simp] theorem skip_accI (s : State) : s.skip.accI = s.accI := rfl
@[simp] theorem skip_accT (s : State) : s.skip.accT = s.accT := rfl
@[simp] theorem skip_accR (s : State) : s.skip.accR = s.accR := rfl
@[simp] theorem skip_lastTime (s : State) : s.skip.lastTime = s.lastTime := rfl
@[simp] theorem skip_halted (s : State) : s.skip.halted = s.halted := rfl
@[simp] theorem skip_fault (s : State) : s.skip.fault = s.fault := rfl
@[simp] theorem skip_params (s : State) : s.skip.params = s.params := rfl
@[simp] theorem skip_draws (s : State) : s.skip.draws = s.draws := rfl
@[simp] theorem skip_loadOpen (s : State) : s.skip.loadOpen = s.loadOpen := rfl
@[simp] theorem skip_getV (s : State) (q : Reg) : s.skip.getV q = s.getV q := rfl
@[simp] theorem skip_slot (s : State) (k : Fin 16) : s.skip.slot k = s.slot k := rfl
@[simp] theorem skip_pixel (s : State) (r : Fin 32) (c : Fin 64) : s.skip.pixel r c = s.pixel r c := rfl
@[simp] theorem skip_byteAt (s : State) (a : Nat) : s.skip.byteAt a = s.byteAt a := rfl

/-! ## `rewind` -/

@[simp] theorem rewind_v (s : State) : s.rewind.v = s.v := rfl
@[simp] theorem rewind_i (s : State) : s.rewind.i = s.i := rfl
@[simp] theorem rewind_pc (s : State) : s.rewind.pc = s.pc - 2 := rfl
@[simp] theorem rewind_sp (s : State) : s.rewind.sp = s.sp := rfl
@[simp] theorem rewind_stack (s : State) : s.rewind.stack = s.stack := rfl
@[simp] theorem rewind_dt (s : State) : s.rewind.dt = s.dt := rfl
@[simp] theorem rewind_st (s : State) : s.rewind.st = s.st := rfl
@[simp] theorem rewind_disp (s : State) : s.rewind.disp = s.disp := rfl
@[simp] theorem rewind_mem (s : State) : s.rewind.mem = s.mem := rfl
@[simp] theorem rewind_accI (s : State) : s.rewind.accI = s.accI := rfl
@[simp] theorem rewind_accT (s : State) : s.rewind.accT = s.accT := rfl
@[simp] theorem rewind_accR (s : State) : s.rewind.accR = s.accR := rfl
@[simp] theorem rewind_lastTime (s : State) : s.rewind.lastTime = s.lastTime := rfl
@[simp] theorem rewind_halted (s : State) : s.rewind.halted = s.halted := rfl
@[simp] theorem rewind_fault (s : State) : s.rewind.fault = s.fault := rfl
@[simp] theorem rewind_params (s : State) : s.rewind.params = s.params := rfl
@[simp] theorem rewind_draws (s : State) : s.rewind.draws = s.draws := rfl
@[simp] theorem rewind_loadOpen (s : State) : s.rewind.loadOpen = s.loadOpen := rfl
@[simp] theorem rewind_getV (s : State) (q : Reg) : s.rewind.getV q = s.getV q := rfl
@[simp] theorem rewind_slot (s : State) (k : Fin 16) : s.rewind.slot k = s.slot k := rfl
@[simp] theorem rewind_pixel (s : State) (r : Fin 32) (c : Fin 64) : s.rewind.pixel r c = s.pixel r c := rfl
@[simp] theorem rewind_byteAt (s : State) (a : Nat) : s.rewind.byteAt a = s.byteAt a := rfl

/-! ## `jump` -/

@[simp] theorem jump_v (s : State) (w : Word) : (s.jump w).v = s.v := rfl
@[simp] theorem jump_i (s : State) (w : Word) : (s.jump w).i = s.i := rfl
@[simp] theorem jump_pc (s : State) (w : Word) : (s.jump w).pc = w := rfl
@[simp] theorem jump_sp (s : State) (w : Word) : (s.jump w).sp = s.sp := rfl
@[simp] theorem jump_stack (s : State) (w : Word) : (s.jump w).stack = s.stack := rfl
@[simp] theorem jump_dt (s : State) (w : Word) : (s.jump w).dt = s.dt := rfl
@[simp] theorem jump_st (s : State) (w : Word) : (s.jump w).st = s.st := rfl
@[simp] theorem jump_disp (s : State) (w : Word) : (s.jump w).disp = s.disp := rfl
@[simp] theorem jump_mem (s : State) (w : Word) : (s.jump w).mem = s.mem := rfl
@[simp] theorem jump_accI (s : State) (w : Word) : (s.jump w).accI = s.accI := rfl
@[simp] theorem jump_accT (s : State) (w : Word) : (s.jump w).accT = s.accT := rfl
@[simp] theorem jump_accR (s : State) (w : Word) : (s.jump w).accR = s.accR := rfl
@[simp] theorem jump_lastTime (s : State) (w : Word) : (s.jump w).lastTime = s.lastTime := rfl
@[simp] theorem jump_halted (s : State) (w : Word) : (s.jump w).halted = s.halted := rfl
@[simp] theorem jump_fault (s : State) (w : Word) : (s.jump w).fault = s.fault := rfl
@[simp] theorem jump_params (s : State) (w : Word) : (s.jump w).params = s.params := rfl
@[simp] theorem jump_draws (s : State) (w : Word) : (s.jump w).draws = s.draws := rfl
@[simp] theorem jump_loadOpen (s : State) (w : Word) : (s.jump w).loadOpen = s.loadOpen := rfl
@[simp] theorem jump_getV (s : State) (w : Word) (q : Reg) : (s.jump w).getV q = s.getV q := rfl
@[simp] theorem jump_slot (s : State) (w : Word) (k : Fin 16) : (s.jump w).slot k = s.slot k := rfl
@[simp] theorem jump_pixel (s : State) (w : Word) (r : Fin 32) (c : Fin 64) : (s.jump w).pixel r c = s.pixel r c := rfl
@[simp] theorem jump_byteAt (s : State) (w : Word) (a : Nat) : (s.jump w).byteAt a = s.byteAt a := rfl

/-! ## `setI` -/

@[simp] theorem setI_v (s : State) (w : Word) : (s.setI w).v = s.v := rfl
@[simp] theorem setI_i (s : State) (w : Word) : (s.setI w).i = w := rfl
@[simp] theorem setI_pc (s : State) (w : Word) : (s.setI w).pc = s.pc := rfl
@[simp] theorem setI_sp (s : State) (w : Word) : (s.setI w).sp = s.sp := rfl
@[simp] theorem setI_stack (s : State) (w : Word) : (s.setI w).stack = s.stack := rfl
@[simp] theorem setI_dt (s : State) (w : Word) : (s.setI w).dt = s.dt := rfl
@[simp] theorem setI_st (s : State) (w : Word) : (s.setI w).st = s.st := rfl
@[simp] theorem setI_disp (s : State) (w : Word) : (s.setI w).disp = s.disp := rfl
@[simp] theorem setI_mem (s : State) (w : Word) : (s.setI w).mem = s.mem := rfl
@[simp] theorem setI_accI (s : State) (w : Word) : (s.setI w).accI = s.accI := rfl
@[simp] theorem setI_accT (s : State) (w : Word) : (s.setI w).accT = s.accT := rfl
@[simp] theorem setI_accR (s : State) (w : Word) : (s.setI w).accR = s.accR := rfl
@[simp] theorem setI_lastTime (s : State) (w : Word) : (s.setI w).lastTime = s.lastTime := rfl
@[simp] theorem setI_halted (s : State) (w : Word) : (s.setI w).halted = s.halted := rfl
@[simp] theorem setI_fault (s : State) (w : Word) : (s.setI w).fault = s.fault := rfl
@[simp] theorem setI_params (s : State) (w : Word) : (s.setI w).params = s.params := rfl
@[simp] theorem setI_draws (s : State) (w : Word) : (s.setI w).draws = s.draws := rfl
@[simp] theorem setI_loadOpen (s : State) (w : Word) : (s.setI w).loadOpen = s.loadOpen := rfl
@[simp] theorem setI_getV (s : State) (w : Word) (q : Reg) : (s.setI w).getV q = s.getV q := rfl
@[simp] theorem setI_slot (s : State) (w : Word) (k : Fin 16) : (s.setI w).slot k = s.slot k := rfl
@[simp] theorem setI_pixel (s : State) (w : Word) (r : Fin 32) (c : Fin 64) : (s.setI w).pixel r c = s.pixel r c := rfl
@[simp] theorem setI_byteAt (s : State) (w : Word) (a : Nat) : (s.setI w).byteAt a = s.byteAt a := rfl

/-! ## `setDt` -/

@[simp] theorem setDt_v (s : State) (b : Byte) : (s.setDt b).v = s.v := rfl
@[simp] theorem setDt_i (s : State) (b : Byte) : (s.setDt b).i = s.i := rfl
@[simp] theorem setDt_pc (s : State) (b : Byte) : (s.setDt b).pc = s.pc := rfl
@[simp] theorem setDt_sp (s : State) (b : Byte) : (s.setDt b).sp = s.sp := rfl
@[simp] theorem setDt_stack (s : State) (b : Byte) : (s.setDt b).stack = s.stack := rfl
@[simp] theorem setDt_dt (s : State) (b : Byte) : (s.setDt b).dt = b := rfl
@[simp] theorem setDt_st (s : State) (b : Byte) : (s.setDt b).st = s.st := rfl
@[simp] theorem setDt_disp (s : State) (b : Byte) : (s.setDt b).disp = s.disp := rfl
@[simp] theorem setDt_mem (s : State) (b : Byte) : (s.setDt b).mem = s.mem := rfl
@[simp] theorem setDt_accI (s : State) (b : Byte) : (s.setDt b).accI = s.accI := rfl
@[simp] theorem setDt_accT (s : State) (b : Byte) : (s.setDt b).accT = s.accT := rfl
@[simp] theorem setDt_accR (s : State) (b : Byte) : (s.setDt b).accR = s.accR := rfl
@[simp] theorem setDt_lastTime (s : State) (b : Byte) : (s.setDt b).lastTime = s.lastTime := rfl
@[simp] theorem setDt_halted (s : State) (b : Byte) : (s.setDt b).halted = s.halted := rfl
@[simp] theorem setDt_fault (s : State) (b : Byte) : (s.setDt b).fault = s.fault := rfl
@[simp] theorem setDt_params (s : State) (b : Byte) : (s.setDt b).params = s.params := rfl
@[simp] theorem setDt_draws (s : State) (b : Byte) : (s.setDt b).draws = s.draws := rfl
@[simp] theorem setDt_loadOpen (s : State) (b : Byte) : (s.setDt b).loadOpen = s.loadOpen := rfl
@[simp] theorem setDt_getV (s : State) (b : Byte) (q : Reg) : (s.setDt b).getV q = s.getV q := rfl
@[simp] theorem setDt_slot (s : State) (b : Byte) (k : Fin 16) : (s.setDt b).slot k = s.slot k := rfl
@[simp] theorem setDt_pixel (s : State) (b : Byte) (r : Fin 32) (c : Fin 64) : (s.setDt b).pixel r c = s.pixel r c := rfl
@[simp] theorem setDt_byteAt (s : State) (b : Byte) (a : Nat) : (s.setDt b).byteAt a = s.byteAt a := rfl

/-! ## `setSt` -/

@[simp] theorem setSt_v (s : State) (b : Byte) : (s.setSt b).v = s.v := rfl
@[simp] theorem setSt_i (s : State) (b : Byte) : (s.setSt b).i = s.i := rfl
@[simp] theorem setSt_pc (s : State) (b : Byte) : (s.setSt b).pc = s.pc := rfl
@[simp] theorem setSt_sp (s : State) (b : Byte) : (s.setSt b).sp = s.sp := rfl
@[simp] theorem setSt_stack (s : State) (b : Byte) : (s.setSt b).stack = s.stack := rfl
@[simp] theorem setSt_dt (s : State) (b : Byte) : (s.setSt b).dt = s.dt := rfl
@[simp] theorem setSt_st (s : State) (b : Byte) : (s.setSt b).st = b := rfl
@[simp] theorem setSt_disp (s : State) (b : Byte) : (s.setSt b).disp = s.disp := rfl
@[simp] theorem setSt_mem (s : State) (b : Byte) : (s.setSt b).mem = s.mem := rfl
@[simp] theorem setSt_accI (s : State) (b : Byte) : (s.setSt b).accI = s.accI := rfl
@[simp] theorem setSt_accT (s : State) (b : Byte) : (s.setSt b).accT = s.accT := rfl
@[simp] theorem setSt_accR (s : State) (b : Byte) : (s.setSt b).accR = s.accR := rfl
@[simp] theorem setSt_lastTime (s : State) (b : Byte) : (s.setSt b).lastTime = s.lastTime := rfl
@[simp] theorem setSt_halted (s : State) (b : Byte) : (s.setSt b).halted = s.halted := rfl
@[simp] theorem setSt_fault (s : State) (b : Byte) : (s.setSt b).fault = s.fault := rfl
@[simp] theorem setSt_params (s : State) (b : Byte) : (s.setSt b).params = s.params := rfl
@[simp] theorem setSt_draws (s : State) (b : Byte) : (s.setSt b).draws = s.draws := rfl
@[simp] theorem setSt_loadOpen (s : State) (b : Byte) : (s.setSt b).loadOpen = s.loadOpen := rfl
@[simp] theorem setSt_getV (s : State) (b : Byte) (q : Reg) : (s.setSt b).getV q = s.getV q := rfl
@[simp] theorem setSt_slot (s : State) (b : Byte) (k : Fin 16) : (s.setSt b).slot k = s.slot k := rfl
@[simp] theorem setSt_pixel (s : State) (b : Byte) (r : Fin 32) (c : Fin 64) : (s.setSt b).pixel r c = s.pixel r c := rfl
@[simp] theorem setSt_byteAt (s : State) (b : Byte) (a : Nat) : (s.setSt b).byteAt a = s.byteAt a := rfl

/-! ## `clearDisplay` -/

@[simp] theorem clearDisplay_v (s : State) : s.clearDisplay.v = s.v := rfl
@[simp] theorem clearDisplay_i (s : State) : s.clearDisplay.i = s.i := rfl
@[simp] theorem clearDisplay_pc (s : State) : s.clearDisplay.pc = s.pc := rfl
@[simp] theorem clearDisplay_sp (s : State) : s.clearDisplay.sp = s.sp := rfl
@[simp] theorem clearDisplay_stack (s : State) : s.clearDisplay.stack = s.stack := rfl
@[simp] theorem clearDisplay_dt (s : State) : s.clearDisplay.dt = s.dt := rfl
@[simp] theorem clearDisplay_st (s : State) : s.clearDisplay.st = s.st := rfl
@[simp] theorem clearDisplay_disp (s : State) : s.clearDisplay.disp = Vector.replicate 32 0 := rfl
@[simp] theorem clearDisplay_mem (s : State) : s.clearDisplay.mem = s.mem := rfl
@[simp] theorem clearDisplay_accI (s : State) : s.clearDisplay.accI = s.accI := rfl
@[simp] theorem clearDisplay_accT (s : State) : s.clearDisplay.accT = s.accT := rfl
@[simp] theorem clearDisplay_accR (s : State) : s.clearDisplay.accR = s.accR := rfl
@[simp] theorem clearDisplay_lastTime (s : State) : s.clearDisplay.lastTime = s.lastTime := rfl
@[simp] theorem clearDisplay_halted (s : State) : s.clearDisplay.halted = s.halted := rfl
@[simp] theorem clearDisplay_fault (s : State) : s.clearDisplay.fault = s.fault := rfl
@[simp] theorem clearDisplay_params (s : State) : s.clearDisplay.params = s.params := rfl
@[simp] theorem clearDisplay_draws (s : State) : s.clearDisplay.draws = s.draws := rfl
@[simp] theorem clearDisplay_loadOpen (s : State) : s.clearDisplay.loadOpen = s.loadOpen := rfl
@[simp] theorem clearDisplay_getV (s : State) (q : Reg) : s.clearDisplay.getV q = s.getV q := rfl
@[simp] theorem clearDisplay_slot (s : State) (k : Fin 16) : s.clearDisplay.slot k = s.slot k := rfl
@[simp] theorem clearDisplay_byteAt (s : State) (a : Nat) : s.clearDisplay.byteAt a = s.byteAt a := rfl

/-! ## `drawn` -/

@[simp] theorem drawn_v (s : State) : s.drawn.v = s.v := rfl
@[simp] theorem drawn_i (s : State) : s.drawn.i = s.i := rfl
@[simp] theorem drawn_pc (s : State) : s.drawn.pc = s.pc := rfl
@[simp] theorem drawn_sp (s : State) : s.drawn.sp = s.sp := rfl
@[simp] theorem drawn_stack (s : State) : s.drawn.stack = s.stack := rfl
@[simp] theorem drawn_dt (s : State) : s.drawn.dt = s.dt := rfl
@[simp] theorem drawn_st (s : State) : s.drawn.st = s.st := rfl
@[simp] theorem drawn_disp (s : State) : s.drawn.disp = s.disp := rfl
@[simp] theorem drawn_mem (s : State) : s.drawn.mem = s.mem := rfl
@[simp] theorem drawn_accI (s : State) : s.drawn.accI = s.accI := rfl
@[simp] theorem drawn_accT (s : State) : s.drawn.accT = s.accT := rfl
@[simp] theorem drawn_accR (s : State) : s.drawn.accR = s.accR := rfl
@[simp] theorem drawn_lastTime (s : State) : s.drawn.lastTime = s.lastTime := rfl
@[simp] theorem drawn_halted (s : State) : s.drawn.halted = s.halted := rfl
@[simp] theorem drawn_fault (s : State) : s.drawn.fault = s.fault := rfl
@[simp] theorem drawn_params (s : State) : s.drawn.params = s.params := rfl
@[simp] theorem drawn_draws (s : State) : s.drawn.draws = s.draws + 1 := rfl
@[simp] theorem drawn_loadOpen (s : State) : s.drawn.loadOpen = s.loadOpen := rfl
@[simp] theorem drawn_getV (s : State) (q : Reg) : s.drawn.getV q = s.getV q := rfl
@[simp] theorem drawn_slot (s : State) (k : Fin 16) : s.drawn.slot k = s.slot k := rfl
@[simp] theorem drawn_pixel (s : State) (r : Fin 32) (c : Fin 64) : s.drawn.pixel r c = s.pixel r c := rfl
@[simp] theorem drawn_byteAt (s : State) (a : Nat) : s.drawn.byteAt a = s.byteAt a := rfl

/-! ## `raise` -/

@[simp] theorem raise_v (s : State) (k : FaultCode) (op : Word) (n : Nat) : (s.raise k op n).v = s.v := rfl
@[simp] theorem raise_i (s : State) (k : FaultCode) (op : Word) (n : Nat) : (s.raise k op n).i = s.i := rfl
@[simp] theorem raise_pc (s : State) (k : FaultCode) (op : Word) (n : Nat) : (s.raise k op n).pc = s.pc := rfl
@[simp] theorem raise_sp (s : State) (k : FaultCode) (op : Word) (n : Nat) : (s.raise k op n).sp = s.sp := rfl
@[simp] theorem raise_stack (s : State) (k : FaultCode) (op : Word) (n : Nat) : (s.raise k op n).stack = s.stack := rfl
@[simp] theorem raise_dt (s : State) (k : FaultCode) (op : Word) (n : Nat) : (s.raise k op n).dt = s.dt := rfl
@[simp] theorem raise_st (s : State) (k : FaultCode) (op : Word) (n : Nat) : (s.raise k op n).st = s.st := rfl
@[simp] theorem raise_disp (s : State) (k : FaultCode) (op : Word) (n : Nat) : (s.raise k op n).disp = s.disp := rfl
@[simp] theorem raise_mem (s : State) (k : FaultCode) (op : Word) (n : Nat) : (s.raise k op n).mem = s.mem := rfl
@[simp] theorem raise_accI (s : State) (k : FaultCode) (op : Word) (n : Nat) : (s.raise k op n).accI = s.accI := rfl
@[simp] theorem raise_accT (s : State) (k : FaultCode) (op : Word) (n : Nat) : (s.raise k op n).accT = s.accT := rfl
@[simp] theorem raise_accR (s : State) (k : FaultCode) (op : Word) (n : Nat) : (s.raise k op n).accR = s.accR := rfl
@[simp] theorem raise_lastTime (s : State) (k : FaultCode) (op : Word) (n : Nat) : (s.raise k op n).lastTime = s.lastTime := rfl
@[simp] theorem raise_halted (s : State) (k : FaultCode) (op : Word) (n : Nat) : (s.raise k op n).halted = true := rfl
@[simp] theorem raise_fault (s : State) (k : FaultCode) (op : Word) (n : Nat) : (s.raise k op n).fault = ⟨k, s.pc, op, n⟩ := rfl
@[simp] theorem raise_params (s : State) (k : FaultCode) (op : Word) (n : Nat) : (s.raise k op n).params = s.params := rfl
@[simp] theorem raise_draws (s : State) (k : FaultCode) (op : Word) (n : Nat) : (s.raise k op n).draws = s.draws := rfl
@[simp] theorem raise_loadOpen (s : State) (k : FaultCode) (op : Word) (n : Nat) : (s.raise k op n).loadOpen = s.loadOpen := rfl
@[simp] theorem raise_getV (s : State) (k : FaultCode) (op : Word) (n : Nat) (q : Reg) : (s.raise k op n).getV q = s.getV q := rfl
@[simp] theorem raise_slot (s : State) (k : FaultCode) (op : Word) (n : Nat) (j : Fin 16) : (s.raise k op n).slot j = s.slot j := rfl
@[simp] theorem raise_pixel (s : State) (k : FaultCode) (op : Word) (n : Nat) (r : Fin 32) (c : Fin 64) : (s.raise k op n).pixel r c = s.pixel r c := rfl
@[simp] theorem raise_byteAt (s : State) (k : FaultCode) (op : Word) (n : Nat) (a : Nat) : (s.raise k op n).byteAt a = s.byteAt a := rfl

/-! ## `beginIterate` -/

@[simp] theorem beginIterate_v (s : State) (now : Nat) : (s.beginIterate now).v = s.v := rfl
@[simp] theorem beginIterate_i (s : State) (now : Nat) : (s.beginIterate now).i = s.i := rfl
@[simp] theorem beginIterate_pc (s : State) (now : Nat) : (s.beginIterate now).pc = s.pc := rfl
@[simp] theorem beginIterate_sp (s : State) (now : Nat) : (s.beginIterate now).sp = s.sp := rfl
@[simp] theorem beginIterate_stack (s : State) (now : Nat) : (s.beginIterate now).stack = s.stack := rfl
@[simp] theorem beginIterate_dt (s : State) (now : Nat) : (s.beginIterate now).dt = s.dt := rfl
@[simp] theorem beginIterate_st (s : State) (now : Nat) : (s.beginIterate now).st = s.st := rfl
@[simp] theorem beginIterate_disp (s : State) (now : Nat) : (s.beginIterate now).disp = s.disp := rfl
@[simp] theorem beginIterate_mem (s : State) (now : Nat) : (s.beginIterate now).mem = s.mem := rfl
@[simp] theorem beginIterate_accI (s : State) (now : Nat) : (s.beginIterate now).accI = s.accI + (now - s.lastTime) := rfl
@[simp] theorem beginIterate_accT (s : State) (now : Nat) : (s.beginIterate now).accT = s.accT + (now - s.lastTime) := rfl
@[simp] theorem beginIterate_accR (s : State) (now : Nat) : (s.beginIterate now).accR = s.accR + (now - s.lastTime) := rfl
@[simp] theorem beginIterate_lastTime (s : State) (now : Nat) : (s.beginIterate now).lastTime = now := rfl
@[simp] theorem beginIterate_halted (s : State) (now : Nat) : (s.beginIterate now).halted = s.halted := rfl
@[simp] theorem beginIterate_fault (s : State) (now : Nat) : (s.beginIterate now).fault = s.fault := rfl
@[simp] theorem beginIterate_params (s : State) (now : Nat) : (s.beginIterate now).params = s.params := rfl
@[simp] theorem beginIterate_draws (s : State) (now : Nat) : (s.beginIterate now).draws = s.draws := rfl
@[simp] theorem beginIterate_loadOpen (s : State) (now : Nat) : (s.beginIterate now).loadOpen = false := rfl
@[simp] theorem beginIterate_getV (s : State) (now : Nat) (q : Reg) : (s.beginIterate now).getV q = s.getV q := rfl
@[simp] theorem beginIterate_slot (s : State) (now : Nat) (k : Fin 16) : (s.beginIterate now).slot k = s.slot k := rfl
@[simp] theorem beginIterate_pixel (s : State) (now : Nat) (r : Fin 32) (c : Fin 64) : (s.beginIterate now).pixel r c = s.pixel r c := rfl
@[simp] theorem beginIterate_byteAt (s : State) (now : Nat) (a : Nat) : (s.beginIterate now).byteAt a = s.byteAt a := rfl

/-! ## `makeStepDue` -/

@[simp] theorem makeStepDue_v (s : State) : s.makeStepDue.v = s.v := rfl
@[simp] theorem makeStepDue_i (s : State) : s.makeStepDue.i = s.i := rfl
@[simp] theorem makeStepDue_pc (s : State) : s.makeStepDue.pc = s.pc := rfl
@[simp] theorem makeStepDue_sp (s : State) : s.makeStepDue.sp = s.sp := rfl
@[simp] theorem makeStepDue_stack (s : State) : s.makeStepDue.stack = s.stack := rfl
@[simp] theorem makeStepDue_dt (s : State) : s.makeStepDue.dt = s.dt := rfl
@[simp] theorem makeStepDue_st (s : State) : s.makeStepDue.st = s.st := rfl
@[simp] theorem makeStepDue_disp (s : State) : s.makeStepDue.disp = s.disp := rfl
@[simp] theorem makeStepDue_mem (s : State) : s.makeStepDue.mem = s.mem := rfl
@[simp] theorem makeStepDue_accI (s : State) : s.makeStepDue.accI = max s.accI s.periodI := rfl
@[simp] theorem makeStepDue_accT (s : State) : s.makeStepDue.accT = s.accT := rfl
@[simp] theorem makeStepDue_accR (s : State) : s.makeStepDue.accR = s.accR := rfl
@[simp] theorem makeStepDue_lastTime (s : State) : s.makeStepDue.lastTime = s.lastTime := rfl
@[simp] theorem makeStepDue_halted (s : State) : s.makeStepDue.halted = false := rfl
@[simp] theorem makeStepDue_fault (s : State) : s.makeStepDue.fault = s.fault := rfl
@[simp] theorem makeStepDue_params (s : State) : s.makeStepDue.params = s.params := rfl
@[simp] theorem makeStepDue_draws (s : State) : s.makeStepDue.draws = s.draws := rfl
@[simp] theorem makeStepDue_loadOpen (s : State) : s.makeStepDue.loadOpen = s.loadOpen := rfl
@[simp] theorem makeStepDue_getV (s : State) (q : Reg) : s.makeStepDue.getV q = s.getV q := rfl
@[simp] theorem makeStepDue_slot (s : State) (k : Fin 16) : s.makeStepDue.slot k = s.slot k := rfl
@[simp] theorem makeStepDue_pixel (s : State) (r : Fin 32) (c : Fin 64) : s.makeStepDue.pixel r c = s.pixel r c := rfl
@[simp] theorem makeStepDue_byteAt (s : State) (a : Nat) : s.makeStepDue.byteAt a = s.byteAt a := rfl

/-! ## `timerTick` -/

@[simp] theorem timerTick_v (s : State) : s.timerTick.v = s.v := rfl
@[simp] theorem timerTick_i (s : State) : s.timerTick.i = s.i := rfl
@[simp] theorem timerTick_pc (s : State) : s.timerTick.pc = s.pc := rfl
@[simp] theorem timerTick_sp (s : State) : s.timerTick.sp = s.sp := rfl
@[simp] theorem timerTick_stack (s : State) : s.timerTick.stack = s.stack := rfl
@[simp] theorem timerTick_dt (s : State) : s.timerTick.dt = decrementIfPositive s.dt := rfl
@[simp] theorem timerTick_st (s : State) : s.timerTick.st = decrementIfPositive s.st := rfl
@[simp] theorem timerTick_disp (s : State) : s.timerTick.disp = s.disp := rfl
@[simp] theorem timerTick_mem (s : State) : s.timerTick.mem = s.mem := rfl
@[simp] theorem timerTick_accI (s : State) : s.timerTick.accI = s.accI := rfl
@[simp] theorem timerTick_accT (s : State) : s.timerTick.accT = s.accT := rfl
@[simp] theorem timerTick_accR (s : State) : s.timerTick.accR = s.accR := rfl
@[simp] theorem timerTick_lastTime (s : State) : s.timerTick.lastTime = s.lastTime := rfl
@[simp] theorem timerTick_halted (s : State) : s.timerTick.halted = s.halted := rfl
@[simp] theorem timerTick_fault (s : State) : s.timerTick.fault = s.fault := rfl
@[simp] theorem timerTick_params (s : State) : s.timerTick.params = s.params := rfl
@[simp] theorem timerTick_draws (s : State) : s.timerTick.draws = s.draws := rfl
@[simp] theorem timerTick_loadOpen (s : State) : s.timerTick.loadOpen = s.loadOpen := rfl
@[simp] theorem timerTick_getV (s : State) (q : Reg) : s.timerTick.getV q = s.getV q := rfl
@[simp] theorem timerTick_slot (s : State) (k : Fin 16) : s.timerTick.slot k = s.slot k := rfl
@[simp] theorem timerTick_pixel (s : State) (r : Fin 32) (c : Fin 64) : s.timerTick.pixel r c = s.pixel r c := rfl
@[simp] theorem timerTick_byteAt (s : State) (a : Nat) : s.timerTick.byteAt a = s.byteAt a := rfl

/-! ## `popped` -/

@[simp] theorem popped_v (s : State) : s.popped.v = s.v := rfl
@[simp] theorem popped_i (s : State) : s.popped.i = s.i := rfl
@[simp] theorem popped_pc (s : State) : s.popped.pc = s.pc := rfl
@[simp] theorem popped_sp (s : State) : s.popped.sp = ⟨s.sp.val - 1, by have := s.sp.isLt; omega⟩ := rfl
@[simp] theorem popped_stack (s : State) : s.popped.stack = s.stack := rfl
@[simp] theorem popped_dt (s : State) : s.popped.dt = s.dt := rfl
@[simp] theorem popped_st (s : State) : s.popped.st = s.st := rfl
@[simp] theorem popped_disp (s : State) : s.popped.disp = s.disp := rfl
@[simp] theorem popped_mem (s : State) : s.popped.mem = s.mem := rfl
@[simp] theorem popped_accI (s : State) : s.popped.accI = s.accI := rfl
@[simp] theorem popped_accT (s : State) : s.popped.accT = s.accT := rfl
@[simp] theorem popped_accR (s : State) : s.popped.accR = s.accR := rfl
@[simp] theorem popped_lastTime (s : State) : s.popped.lastTime = s.lastTime := rfl
@[simp] theorem popped_halted (s : State) : s.popped.halted = s.halted := rfl
@[simp] theorem popped_fault (s : State) : s.popped.fault = s.fault := rfl
@[simp] theorem popped_params (s : State) : s.popped.params = s.params := rfl
@[simp] theorem popped_draws (s : State) : s.popped.draws = s.draws := rfl
@[simp] theorem popped_loadOpen (s : State) : s.popped.loadOpen = s.loadOpen := rfl
@[simp] theorem popped_getV (s : State) (q : Reg) : s.popped.getV q = s.getV q := rfl
@[simp] theorem popped_slot (s : State) (k : Fin 16) : s.popped.slot k = s.slot k := rfl
@[simp] theorem popped_pixel (s : State) (r : Fin 32) (c : Fin 64) : s.popped.pixel r c = s.pixel r c := rfl
@[simp] theorem popped_byteAt (s : State) (a : Nat) : s.popped.byteAt a = s.byteAt a := rfl

/-! ## `pushed` -/

@[simp] theorem pushed_v (s : State) (w : Word) (h : s.sp.val < 16) : (s.pushed w h).v = s.v := rfl
@[simp] theorem pushed_i (s : State) (w : Word) (h : s.sp.val < 16) : (s.pushed w h).i = s.i := rfl
@[simp] theorem pushed_pc (s : State) (w : Word) (h : s.sp.val < 16) : (s.pushed w h).pc = s.pc := rfl
@[simp] theorem pushed_sp (s : State) (w : Word) (h : s.sp.val < 16) : (s.pushed w h).sp = ⟨s.sp.val + 1, by omega⟩ := rfl
@[simp] theorem pushed_stack (s : State) (w : Word) (h : s.sp.val < 16) : (s.pushed w h).stack = s.stack.set s.sp.val w h := rfl
@[simp] theorem pushed_dt (s : State) (w : Word) (h : s.sp.val < 16) : (s.pushed w h).dt = s.dt := rfl
@[simp] theorem pushed_st (s : State) (w : Word) (h : s.sp.val < 16) : (s.pushed w h).st = s.st := rfl
@[simp] theorem pushed_disp (s : State) (w : Word) (h : s.sp.val < 16) : (s.pushed w h).disp = s.disp := rfl
@[simp] theorem pushed_mem (s : State) (w : Word) (h : s.sp.val < 16) : (s.pushed w h).mem = s.mem := rfl
@[simp] theorem pushed_accI (s : State) (w : Word) (h : s.sp.val < 16) : (s.pushed w h).accI = s.accI := rfl
@[simp] theorem pushed_accT (s : State) (w : Word) (h : s.sp.val < 16) : (s.pushed w h).accT = s.accT := rfl
@[simp] theorem pushed_accR (s : State) (w : Word) (h : s.sp.val < 16) : (s.pushed w h).accR = s.accR := rfl
@[simp] theorem pushed_lastTime (s : State) (w : Word) (h : s.sp.val < 16) : (s.pushed w h).lastTime = s.lastTime := rfl
@[simp] theorem pushed_halted (s : State) (w : Word) (h : s.sp.val < 16) : (s.pushed w h).halted = s.halted := rfl
@[simp] theorem pushed_fault (s : State) (w : Word) (h : s.sp.val < 16) : (s.pushed w h).fault = s.fault := rfl
@[simp] theorem pushed_params (s : State) (w : Word) (h : s.sp.val < 16) : (s.pushed w h).params = s.params := rfl
@[simp] theorem pushed_draws (s : State) (w : Word) (h : s.sp.val < 16) : (s.pushed w h).draws = s.draws := rfl
@[simp] theorem pushed_loadOpen (s : State) (w : Word) (h : s.sp.val < 16) : (s.pushed w h).loadOpen = s.loadOpen := rfl
@[simp] theorem pushed_getV (s : State) (w : Word) (h : s.sp.val < 16) (q : Reg) : (s.pushed w h).getV q = s.getV q := rfl
@[simp] theorem pushed_pixel (s : State) (w : Word) (h : s.sp.val < 16) (r : Fin 32) (c : Fin 64) : (s.pushed w h).pixel r c = s.pixel r c := rfl
@[simp] theorem pushed_byteAt (s : State) (w : Word) (h : s.sp.val < 16) (a : Nat) : (s.pushed w h).byteAt a = s.byteAt a := rfl

/-! ## `setResultAndFlag` -/

@[simp] theorem setResultAndFlag_i (s : State) (x : Reg) (b : Byte) (f : Bool) : (s.setResultAndFlag x b f).i = s.i := rfl
@[simp] theorem setResultAndFlag_pc (s : State) (x : Reg) (b : Byte) (f : Bool) : (s.setResultAndFlag x b f).pc = s.pc := rfl
@[simp] theorem setResultAndFlag_sp (s : State) (x : Reg) (b : Byte) (f : Bool) : (s.setResultAndFlag x b f).sp = s.sp := rfl
@[simp] theorem setResultAndFlag_stack (s : State) (x : Reg) (b : Byte) (f : Bool) : (s.setResultAndFlag x b f).stack = s.stack := rfl
@[simp] theorem setResultAndFlag_dt (s : State) (x : Reg) (b : Byte) (f : Bool) : (s.setResultAndFlag x b f).dt = s.dt := rfl
@[simp] theorem setResultAndFlag_st (s : State) (x : Reg) (b : Byte) (f : Bool) : (s.setResultAndFlag x b f).st = s.st := rfl
@[simp] theorem setResultAndFlag_disp (s : State) (x : Reg) (b : Byte) (f : Bool) : (s.setResultAndFlag x b f).disp = s.disp := rfl
@[simp] theorem setResultAndFlag_mem (s : State) (x : Reg) (b : Byte) (f : Bool) : (s.setResultAndFlag x b f).mem = s.mem := rfl
@[simp] theorem setResultAndFlag_accI (s : State) (x : Reg) (b : Byte) (f : Bool) : (s.setResultAndFlag x b f).accI = s.accI := rfl
@[simp] theorem setResultAndFlag_accT (s : State) (x : Reg) (b : Byte) (f : Bool) : (s.setResultAndFlag x b f).accT = s.accT := rfl
@[simp] theorem setResultAndFlag_accR (s : State) (x : Reg) (b : Byte) (f : Bool) : (s.setResultAndFlag x b f).accR = s.accR := rfl
@[simp] theorem setResultAndFlag_lastTime (s : State) (x : Reg) (b : Byte) (f : Bool) : (s.setResultAndFlag x b f).lastTime = s.lastTime := rfl
@[simp] theorem setResultAndFlag_halted (s : State) (x : Reg) (b : Byte) (f : Bool) : (s.setResultAndFlag x b f).halted = s.halted := rfl
@[simp] theorem setResultAndFlag_fault (s : State) (x : Reg) (b : Byte) (f : Bool) : (s.setResultAndFlag x b f).fault = s.fault := rfl
@[simp] theorem setResultAndFlag_params (s : State) (x : Reg) (b : Byte) (f : Bool) : (s.setResultAndFlag x b f).params = s.params := rfl
@[simp] theorem setResultAndFlag_draws (s : State) (x : Reg) (b : Byte) (f : Bool) : (s.setResultAndFlag x b f).draws = s.draws := rfl
@[simp] theorem setResultAndFlag_loadOpen (s : State) (x : Reg) (b : Byte) (f : Bool) : (s.setResultAndFlag x b f).loadOpen = s.loadOpen := rfl
@[simp] theorem setResultAndFlag_slot (s : State) (x : Reg) (b : Byte) (f : Bool) (k : Fin 16) : (s.setResultAndFlag x b f).slot k = s.slot k := rfl
@[simp] theorem setResultAndFlag_pixel (s : State) (x : Reg) (b : Byte) (f : Bool) (r : Fin 32) (c : Fin 64) : (s.setResultAndFlag x b f).pixel r c = s.pixel r c := rfl
@[simp] theorem setResultAndFlag_byteAt (s : State) (x : Reg) (b : Byte) (f : Bool) (a : Nat) : (s.setResultAndFlag x b f).byteAt a = s.byteAt a := rfl

/-! ## `setCanvas` -/

@[simp] theorem setCanvas_v (s : State) (d : Canvas) : (s.setCanvas d).v = s.v.set 15 (flagByte d.hit) := rfl
@[simp] theorem setCanvas_i (s : State) (d : Canvas) : (s.setCanvas d).i = s.i := rfl
@[simp] theorem setCanvas_pc (s : State) (d : Canvas) : (s.setCanvas d).pc = s.pc := rfl
@[simp] theorem setCanvas_sp (s : State) (d : Canvas) : (s.setCanvas d).sp = s.sp := rfl
@[simp] theorem setCanvas_stack (s : State) (d : Canvas) : (s.setCanvas d).stack = s.stack := rfl
@[simp] theorem setCanvas_dt (s : State) (d : Canvas) : (s.setCanvas d).dt = s.dt := rfl
@[simp] theorem setCanvas_st (s : State) (d : Canvas) : (s.setCanvas d).st = s.st := rfl
@[simp] theorem setCanvas_disp (s : State) (d : Canvas) : (s.setCanvas d).disp = d.disp := rfl
@[simp] theorem setCanvas_mem (s : State) (d : Canvas) : (s.setCanvas d).mem = s.mem := rfl
@[simp] theorem setCanvas_accI (s : State) (d : Canvas) : (s.setCanvas d).accI = s.accI := rfl
@[simp] theorem setCanvas_accT (s : State) (d : Canvas) : (s.setCanvas d).accT = s.accT := rfl
@[simp] theorem setCanvas_accR (s : State) (d : Canvas) : (s.setCanvas d).accR = s.accR := rfl
@[simp] theorem setCanvas_lastTime (s : State) (d : Canvas) : (s.setCanvas d).lastTime = s.lastTime := rfl
@[simp] theorem setCanvas_halted (s : State) (d : Canvas) : (s.setCanvas d).halted = s.halted := rfl
@[simp] theorem setCanvas_fault (s : State) (d : Canvas) : (s.setCanvas d).fault = s.fault := rfl
@[simp] theorem setCanvas_params (s : State) (d : Canvas) : (s.setCanvas d).params = s.params := rfl
@[simp] theorem setCanvas_draws (s : State) (d : Canvas) : (s.setCanvas d).draws = s.draws := rfl
@[simp] theorem setCanvas_loadOpen (s : State) (d : Canvas) : (s.setCanvas d).loadOpen = s.loadOpen := rfl
@[simp] theorem setCanvas_slot (s : State) (d : Canvas) (k : Fin 16) : (s.setCanvas d).slot k = s.slot k := rfl
@[simp] theorem setCanvas_byteAt (s : State) (d : Canvas) (a : Nat) : (s.setCanvas d).byteAt a = s.byteAt a := rfl

end Sys2Proof.Machine.State
end

