-- ==== Sys2Proof/Laws/Memory.lean ====
section
/-! SUPPORT. The laws of memory: a read after a write, and that every memory operation keeps the canonical form. -/

namespace Sys2Proof.Machine

/-! ## Reads -/

theorem Memory.read_without_self (font : Vector Byte 80) (m : Memory) (a : Nat) :
    (m.without a).read font a = unlisted font a := by
  induction m with
  | nil => rfl
  | cons c m ih =>
    obtain ⟨k, b⟩ := c
    by_cases h : k = a
    · subst h; simpa [Memory.without] using ih
    · have h' : ¬ a = k := fun e => h e.symm
      simpa [Memory.without, h, Memory.read, h'] using ih

theorem Memory.read_without_other (font : Vector Byte 80) (m : Memory) {a b : Nat} (hb : b ≠ a) :
    (m.without a).read font b = m.read font b := by
  induction m with
  | nil => rfl
  | cons c m ih =>
    obtain ⟨k, d⟩ := c
    by_cases h : k = a
    · subst h; simpa [Memory.without, Memory.read, hb] using ih
    · by_cases hk : b = k
      · subst hk; simp [Memory.without, h, Memory.read]
      · simpa [Memory.without, h, Memory.read, hk] using ih

theorem Memory.read_insert (font : Vector Byte 80) (m : Memory) (a b : Nat) (v : Byte)
    (ha : ∀ c ∈ m, c.1 ≠ a) : (m.insert a v).read font b = if b = a then v else m.read font b := by
  induction m with
  | nil => rfl
  | cons c m ih =>
    obtain ⟨k, d⟩ := c
    have hk : k ≠ a := ha (k, d) (by simp)
    have ih' := ih fun c hc => ha c (by simp [hc])
    unfold Memory.insert
    split
    · simp [Memory.read]
    · by_cases hb : b = k
      · have : ¬ b = a := fun e => hk (hb.symm.trans e)
        simp [Memory.read, hb, hk]
      · simp [Memory.read, hb, ih']

theorem Memory.without_ne (m : Memory) (a : Nat) : ∀ c ∈ m.without a, c.1 ≠ a := by
  intro c hc
  simpa using (List.mem_filter.mp hc).2

/-- A read after a write: the byte written at its address, every other address as before. -/
theorem Memory.read_write (font : Vector Byte 80) (m : Memory) (a b : Nat) (v : Byte) :
    (m.write font a v).read font b = if b = a then v else m.read font b := by
  unfold Memory.write
  by_cases hb : b = a
  · subst hb
    split
    · next hv => simp [Memory.read_without_self, hv]
    · simp [Memory.read_insert font _ _ _ v (Memory.without_ne m b)]
  · split
    · simp [Memory.read_without_other font m hb]
    · simp [Memory.read_insert font _ _ _ v (Memory.without_ne m a), Memory.read_without_other font m hb, hb]

/-! ## The canonical form -/

theorem Memory.mem_insert {m : Memory} {a : Nat} {v : Byte} {c : Host.Cell} :
    c ∈ m.insert a v ↔ c = (a, v) ∨ c ∈ m := by
  induction m with
  | nil => simp [Memory.insert]
  | cons d m ih =>
    obtain ⟨k, b⟩ := d
    unfold Memory.insert
    split
    · simp
    · simp only [List.mem_cons, ih]; tauto

theorem Memory.wf_nil (font : Vector Byte 80) : Memory.wf font [] := by simp [Memory.wf]

theorem Memory.wf_without {font : Vector Byte 80} {m : Memory} (h : Memory.wf font m) (a : Nat) :
    Memory.wf font (m.without a) :=
  ⟨h.1.filter _, fun c hc => h.2 c (List.mem_filter.mp hc).1⟩

theorem Memory.pairwise_insert {m : Memory} {a : Nat} (v : Byte) (h : m.Pairwise fun c d => c.1 < d.1)
    (ha : ∀ c ∈ m, c.1 ≠ a) : (m.insert a v).Pairwise fun c d => c.1 < d.1 := by
  induction m with
  | nil => simp [Memory.insert]
  | cons d m ih =>
    obtain ⟨k, b⟩ := d
    have hk : k ≠ a := ha (k, b) (by simp)
    obtain ⟨h1, h2⟩ := List.pairwise_cons.mp h
    unfold Memory.insert
    split
    · next hlt =>
      refine List.pairwise_cons.mpr ⟨fun c hc => ?_, h⟩
      rcases List.mem_cons.mp hc with rfl | hc
      · exact hlt
      · exact hlt.trans (h1 c hc)
    · next hge =>
      refine List.pairwise_cons.mpr ⟨fun c hc => ?_, ih h2 fun c hc => ha c (by simp [hc])⟩
      rcases Memory.mem_insert.mp hc with rfl | hc
      · simp only; omega
      · exact h1 c hc

/-- A write inside the address space keeps the canonical form. -/
theorem Memory.wf_write {font : Vector Byte 80} {m : Memory} (h : Memory.wf font m) {a : Nat} (v : Byte)
    (ha : a < Config.memSize) : Memory.wf font (m.write font a v) := by
  have h' := Memory.wf_without h a
  unfold Memory.write
  split
  · exact h'
  · next hv =>
    refine ⟨Memory.pairwise_insert v h'.1 (Memory.without_ne m a), fun c hc => ?_⟩
    rcases Memory.mem_insert.mp hc with rfl | hc
    · exact ⟨ha, hv⟩
    · exact h'.2 c hc

/-! ## The state's operations -/

/-- A store of one byte as a read sees it. -/
theorem State.byteAt_setByte (s : State) (a b : Nat) (v : Byte) :
    (s.setByte a v).byteAt b = if b = a ∧ a < Config.memSize then v else s.byteAt b := by
  unfold State.setByte
  split
  · next h => simp [State.byteAt, Memory.read_write, h]
  · next h => simp [h]

/-- A store of one byte changes memory at most. -/
theorem State.setByte_eq (s : State) (a : Nat) (v : Byte) : s.setByte a v = { s with mem := (s.setByte a v).mem } := by
  unfold State.setByte; split <;> rfl

/-- A store of a run of bytes changes memory at most. -/
theorem State.setBytes_eq (s : State) (base : Nat) (bs : List Byte) :
    s.setBytes base bs = { s with mem := (s.setBytes base bs).mem } := by
  induction bs generalizing s base with
  | nil => rfl
  | cons b bs ih =>
    unfold State.setBytes
    rw [ih, State.setByte_eq]

/-- A store of a run of bytes as a read sees it. -/
theorem State.byteAt_setBytes (s : State) (base a : Nat) (bs : List Byte) (h : base + bs.length ≤ 0x1000) :
    (s.setBytes base bs).byteAt a =
      if ha : base ≤ a ∧ a < base + bs.length then bs[a - base]'(by omega) else s.byteAt a := by
  induction bs generalizing s base with
  | nil => have : ¬ (base ≤ a ∧ a < base + ([] : List Byte).length) := by simp
           rw [dif_neg this]; rfl
  | cons b bs ih =>
    simp only [List.length_cons] at h
    unfold State.setBytes
    rw [ih (s.setByte base b) (base + 1) (by omega), State.byteAt_setByte]
    by_cases h1 : a = base
    · subst h1
      have : a < Config.memSize := by simp only [Config.memSize]; omega
      simp [this]
    · by_cases h2 : base ≤ a ∧ a < base + (b :: bs).length
      · have h3 : base + 1 ≤ a ∧ a < base + 1 + bs.length := by
          simp only [List.length_cons] at h2; omega
        rw [dif_pos h3, dif_pos h2]
        have h4 : a - base = a - (base + 1) + 1 := by omega
        simp [h4]
      · have h3 : ¬ (base + 1 ≤ a ∧ a < base + 1 + bs.length) := by
          simp only [List.length_cons] at h2; omega
        rw [dif_neg h3, dif_neg h2, if_neg (by tauto)]

theorem State.setByte_wf {s : State} (h : Memory.wf s.params.font s.mem) (a : Nat) (v : Byte) :
    Memory.wf s.params.font (s.setByte a v).mem := by
  unfold State.setByte
  split
  · next ha => exact Memory.wf_write h v ha
  · exact h

/-- Every store keeps the canonical form. -/
theorem State.setBytes_wf {s : State} (h : Memory.wf s.params.font s.mem) (base : Nat) (bs : List Byte) :
    Memory.wf s.params.font (s.setBytes base bs).mem := by
  induction bs generalizing s base with
  | nil => exact h
  | cons b bs ih =>
    unfold State.setBytes
    have hp : (s.setByte base b).params = s.params := by rw [State.setByte_eq]
    simpa [hp] using ih (s := s.setByte base b) (by rw [hp]; exact State.setByte_wf h base b) (base + 1)

/-- An open load port takes every byte of the program region (R73). -/
theorem loadByte_of_open {s : State} {a : BitVec 12} (v : Byte) (h : s.loadOpen = true) (ha : 0x200 ≤ a.toNat) :
    loadByte a v s = .next (s.setByte a.toNat v) := by
  unfold loadByte
  rw [if_neg (by simp [h]), if_neg (Nat.not_lt.2 ha)]

/-- An open load port takes an image that fits: the bytes are stored one after the other (R73). -/
theorem loadBytes_of_open {s : State} {a : Nat} (image : List Byte) (h : s.loadOpen = true) (ha : 0x200 ≤ a)
    (hl : a + image.length ≤ 0x1000) : loadBytes a image s = .next (s.setBytes a image) := by
  induction image generalizing s a with
  | nil => rfl
  | cons v vs ih =>
    simp only [List.length_cons] at hl
    have ea : (BitVec.ofNat 12 a).toNat = a := by rw [BitVec.toNat_ofNat]; omega
    have eo : (s.setByte a v).loadOpen = true := by rw [State.setByte_eq]; exact h
    unfold loadBytes
    rw [loadByte_of_open v h (ea.symm ▸ ha), ea]
    exact ih eo (by omega) (by omega)

/-- The load port keeps the canonical form. -/
theorem loadByte_wf {s t : State} {a : BitVec 12} {v : Byte} (h : Memory.wf s.params.font s.mem)
    (ht : loadByte a v s = .next t) : Memory.wf t.params.font t.mem := by
  unfold loadByte at ht
  split at ht
  · cases ht
  · split at ht
    · cases ht
    · cases ht
      have hp : (s.setByte a.toNat v).params = s.params := by rw [State.setByte_eq]
      rw [hp]; exact State.setByte_wf h _ _

/-- Reset memory is in canonical form, whatever the parameters. -/
theorem State.resetWith_wf (p : Params) (now draws : Nat) :
    Memory.wf (State.resetWith p now draws).params.font (State.resetWith p now draws).mem := Memory.wf_nil _

end Sys2Proof.Machine
end

