-- ==== Sys2Proof/Laws/Ops.lean ====
section
/-! SUPPORT. One lemma per shared operation that says everything it can do, for later proofs to cite. -/

namespace Sys2Proof.Machine

/-! ## General registers -/

/-- A register read after a register write. -/
@[simp] theorem State.getV_setV (s : State) (x q : Reg) (b : Byte) :
    (s.setV x b).getV q = if q = x then b else s.getV q := by
  unfold State.getV State.setV
  simp only [Vector.get_eq_getElem, Vector.getElem_set, Fin.ext_iff, eq_comm]

/-- A result and a flag: the flag is what `VF` holds in the end (R125, R172). -/
@[simp] theorem State.getV_setResultAndFlag (s : State) (x q : Reg) (b : Byte) (f : Bool) :
    (s.setResultAndFlag x b f).getV q = if q = vf then flagByte f else if q = x then b else s.getV q := by
  simp [State.setResultAndFlag]

/-- A result and a flag change the register file at most. -/
theorem State.setResultAndFlag_eq (s : State) (x : Reg) (b : Byte) (f : Bool) :
    s.setResultAndFlag x b f = { s with v := (s.setResultAndFlag x b f).v } := rfl

/-- A run of register writes changes the register file at most. -/
theorem State.setRegs_eq (s : State) (k : Nat) (bs : List Byte) :
    s.setRegs k bs = { s with v := (s.setRegs k bs).v } := by
  induction bs generalizing s k with
  | nil => rfl
  | cons b bs ih => unfold State.setRegs; rw [ih]; split <;> rfl

/-- A run of register writes as a read sees it. -/
theorem State.getV_setRegs (s : State) (k : Nat) (bs : List Byte) (q : Reg) :
    (s.setRegs k bs).getV q =
      if h : k ≤ q.val ∧ q.val < k + bs.length then bs[q.val - k]'(by omega) else s.getV q := by
  induction bs generalizing s k with
  | nil =>
    have : ¬ (k ≤ q.val ∧ q.val < k + ([] : List Byte).length) := by simp
    rw [dif_neg this]; rfl
  | cons b bs ih =>
    unfold State.setRegs
    rw [ih]
    by_cases h1 : q.val = k
    · have hk : k < 16 := h1 ▸ q.isLt
      have hq : q = ⟨k, hk⟩ := Fin.ext h1
      have h2 : ¬ (k + 1 ≤ q.val ∧ q.val < k + 1 + bs.length) := by omega
      have h3 : k ≤ q.val ∧ q.val < k + (b :: bs).length := by simp only [List.length_cons]; omega
      rw [dif_neg h2, dif_pos h3]
      simp [hk, hq]
    · have hne : (if h : k < 16 then s.setV ⟨k, h⟩ b else s).getV q = s.getV q := by
        split
        · rw [State.getV_setV, if_neg (by rintro rfl; exact h1 rfl)]
        · rfl
      rw [hne]
      by_cases h2 : k ≤ q.val ∧ q.val < k + (b :: bs).length
      · have h3 : k + 1 ≤ q.val ∧ q.val < k + 1 + bs.length := by
          simp only [List.length_cons] at h2; omega
        rw [dif_pos h3, dif_pos h2]
        have h4 : q.val - k = q.val - (k + 1) + 1 := by omega
        simp [h4]
      · have h3 : ¬ (k + 1 ≤ q.val ∧ q.val < k + 1 + bs.length) := by
          simp only [List.length_cons] at h2; omega
        rw [dif_neg h3, dif_neg h2]

@[simp] theorem State.length_regsUpTo (s : State) (x : Reg) : (s.regsUpTo x).length = x.val + 1 := by
  simp [State.regsUpTo]

theorem State.getElem_regsUpTo (s : State) (x : Reg) (k : Nat) (h : k < (s.regsUpTo x).length) :
    (s.regsUpTo x)[k] = s.getV ⟨k, by simp at h; omega⟩ := by
  simp [State.regsUpTo, State.getV, Vector.get_eq_getElem]

@[simp] theorem State.length_bytesAt (s : State) (base n : Nat) : (s.bytesAt base n).length = n := by
  simp [State.bytesAt]

theorem State.getElem_bytesAt (s : State) (base n k : Nat) (h : k < (s.bytesAt base n).length) :
    (s.bytesAt base n)[k] = s.byteAt (base + k) := by
  simp [State.bytesAt]

/-! ## Skips -/

theorem State.skipIf_eq (s : State) (c : Bool) : s.skipIf c = { s with pc := if c then s.pc + 2 else s.pc } := by
  unfold State.skipIf; cases c <;> rfl

/-! ## Call stack -/

/-- `Push` succeeds exactly while fewer than 16 entries are held. -/
theorem State.push?_of_lt (s : State) (a : Word) (h : s.sp.val < 16) : s.push? a = some (s.pushed a h) := by
  simp [State.push?, h]

theorem State.push?_of_full (s : State) (a : Word) (h : s.sp.val = 16) : s.push? a = none := by
  simp [State.push?, h]

/-- A slot read after a push. -/
@[simp] theorem State.slot_pushed (s : State) (a : Word) (h : s.sp.val < 16) (k : Fin 16) :
    (s.pushed a h).slot k = if k.val = s.sp.val then a else s.slot k := by
  simp only [State.slot, State.pushed, Vector.get_eq_getElem, Vector.getElem_set, eq_comm]

/-- `Pop` succeeds exactly while an entry is held, and answers the last one. -/
theorem State.pop?_of_pos (s : State) (h : 0 < s.sp.val) : s.pop? = some (s.slot s.topIndex, s.popped) := by
  have : ¬ s.sp.val = 0 := by omega
  simp [State.pop?, this]

theorem State.pop?_of_empty (s : State) (h : s.sp.val = 0) : s.pop? = none := by
  simp [State.pop?, h]

/-! ## Ranges -/

theorem firstOutside_eq_none {base n : Nat} : firstOutside base n = none ↔ n = 0 ∨ base + n ≤ 0x1000 := by
  unfold firstOutside; split <;> simp_all [Config.memSize]

theorem firstOutside_eq_some {base n : Nat} (h0 : n ≠ 0) (h : 0x1000 < base + n) :
    firstOutside base n = some (if 0xFFF < base then base else 0x1000) := by
  have h1 : ¬ (n = 0 ∨ base + n ≤ Config.memSize) := by simp only [Config.memSize]; omega
  unfold firstOutside
  rw [if_neg h1]
  rfl

end Sys2Proof.Machine
end

