-- ==== Sys2Proof/Laws/Display.lean ====
section
/-! SUPPORT. What the sprite renderer does to the canvas, loop by loop (44_display.md R211): exactly the pixels under set
sprite bits are flipped, and `hit` tells whether one of them was set. -/

namespace Sys2Proof.Machine

/-! ## One sprite bit -/

theorem Canvas.toggle_pixel (d : Canvas) (r q : Fin 32) (c e : Fin 64) :
    ((d.toggle r c).disp.get q).getLsbD e.val =
      if q = r ∧ e = c then !(d.disp.get q).getLsbD e.val else (d.disp.get q).getLsbD e.val := by
  unfold Canvas.toggle
  simp only [Vector.get_eq_getElem, Vector.getElem_set]
  by_cases hq : q = r
  · subst hq
    have he := e.isLt; have hc := c.isLt
    by_cases h : e = c
    · subst h; simp [he]
    · have h' : ¬ e.val = c.val := fun k => h (Fin.ext k)
      simp [h, h']
  · have h' : ¬ r.val = q.val := fun k => hq (Fin.ext k.symm)
    simp [hq, h']

theorem Canvas.toggle_hit (d : Canvas) (r : Fin 32) (c : Fin 64) :
    (d.toggle r c).hit = true ↔ d.hit = true ∨ (d.disp.get r).getLsbD c.val = true := by
  simp [Canvas.toggle]

/-- Two of 64 consecutive columns are different columns. -/
theorem wrapCol_inj {x a b : Nat} (h : wrapCol (x + a) = wrapCol (x + b)) (ha : a < 64) (hb : b < 64) : a = b := by
  have h' : (x + a) % 64 = (x + b) % 64 := congrArg Fin.val h
  omega

/-- Two of 32 consecutive rows are different rows. -/
theorem wrapRow_inj {y a b : Nat} (h : wrapRow (y + a) = wrapRow (y + b)) (ha : a < 32) (hb : b < 32) : a = b := by
  have h' : (y + a) % 32 = (y + b) % 32 := congrArg Fin.val h
  omega

/-! ## One sprite row -/

open Classical in
theorem Canvas.drawBits_pixel (d : Canvas) (row : Byte) (x0 y j n : Nat) (hn : j + n ≤ 8) (q : Fin 32) (e : Fin 64) :
    ((d.drawBits row x0 y j n).disp.get q).getLsbD e.val =
      if q = wrapRow y ∧ ∃ k, j ≤ k ∧ k < j + n ∧ row.getLsbD (7 - k) = true ∧ e = wrapCol (x0 + k) then
        !(d.disp.get q).getLsbD e.val
      else (d.disp.get q).getLsbD e.val := by
  induction n generalizing d j with
  | zero =>
    rw [if_neg (by rintro ⟨-, k, h1, h2, -⟩; omega)]
    rfl
  | succ n ih =>
    unfold Canvas.drawBits
    rw [ih _ (j + 1) (by omega)]
    by_cases hq : q = wrapRow y
    · by_cases hb : row.getLsbD (7 - j) = true
      · rw [if_pos hb, Canvas.toggle_pixel]
        by_cases he : e = wrapCol (x0 + j)
        · have h1 : ¬ (q = wrapRow y ∧ ∃ k, j + 1 ≤ k ∧ k < j + 1 + n ∧ row.getLsbD (7 - k) = true ∧
              e = wrapCol (x0 + k)) := by
            rintro ⟨-, k, h1, h2, -, h3⟩
            have := wrapCol_inj (he.symm.trans h3) (by omega) (by omega)
            omega
          rw [if_neg h1, if_pos ⟨hq, he⟩, if_pos ⟨hq, j, le_refl j, by omega, hb, he⟩]
        · rw [if_neg (show ¬ (q = wrapRow y ∧ e = wrapCol (x0 + j)) from fun h => he h.2)]
          refine if_congr ⟨?_, ?_⟩ rfl rfl
          · rintro ⟨h, k, h1, h2, h3⟩; exact ⟨h, k, by omega, by omega, h3⟩
          · rintro ⟨h, k, h1, h2, h3, h4⟩
            have : k ≠ j := by rintro rfl; exact he h4
            exact ⟨h, k, by omega, by omega, h3, h4⟩
      · rw [if_neg hb]
        refine if_congr ⟨?_, ?_⟩ rfl rfl
        · rintro ⟨h, k, h1, h2, h3⟩; exact ⟨h, k, by omega, by omega, h3⟩
        · rintro ⟨h, k, h1, h2, h3, h4⟩
          have : k ≠ j := by rintro rfl; exact hb h3
          exact ⟨h, k, by omega, by omega, h3, h4⟩
    · simp only [hq, false_and, if_false]
      by_cases hb : row.getLsbD (7 - j) = true
      · rw [if_pos hb, Canvas.toggle_pixel, if_neg (fun h => hq h.1)]
      · rw [if_neg hb]

theorem Canvas.drawBits_hit (d : Canvas) (row : Byte) (x0 y j n : Nat) (hn : j + n ≤ 8) :
    (d.drawBits row x0 y j n).hit = true ↔
      d.hit = true ∨ ∃ k, j ≤ k ∧ k < j + n ∧ row.getLsbD (7 - k) = true ∧
        (d.disp.get (wrapRow y)).getLsbD (wrapCol (x0 + k)).val = true := by
  induction n generalizing d j with
  | zero =>
    refine ⟨Or.inl, ?_⟩
    rintro (h | ⟨k, h1, h2, -⟩)
    · exact h
    · omega
  | succ n ih =>
    unfold Canvas.drawBits
    rw [ih _ (j + 1) (by omega)]
    by_cases hb : row.getLsbD (7 - j) = true
    · rw [if_pos hb, Canvas.toggle_hit]
      constructor
      · rintro ((h | h) | ⟨k, h1, h2, h3, h4⟩)
        · exact .inl h
        · exact .inr ⟨j, le_refl j, by omega, hb, h⟩
        · rw [Canvas.toggle_pixel, if_neg] at h4
          · exact .inr ⟨k, by omega, by omega, h3, h4⟩
          · rintro ⟨-, h5⟩
            have := wrapCol_inj h5 (by omega) (by omega)
            omega
      · rintro (h | ⟨k, h1, h2, h3, h4⟩)
        · exact .inl (.inl h)
        · by_cases hk : k = j
          · subst hk; exact .inl (.inr h4)
          · refine .inr ⟨k, by omega, by omega, h3, ?_⟩
            rw [Canvas.toggle_pixel, if_neg]
            · exact h4
            · rintro ⟨-, h5⟩
              exact hk (wrapCol_inj h5 (by omega) (by omega))
    · rw [if_neg hb]
      refine or_congr_right ⟨?_, ?_⟩
      · rintro ⟨k, h1, h2, h3⟩; exact ⟨k, by omega, by omega, h3⟩
      · rintro ⟨k, h1, h2, h3, h4⟩
        have : k ≠ j := by rintro rfl; exact hb h3
        exact ⟨k, by omega, by omega, h3, h4⟩

/-! ## The sprite -/

/-- The pixels of the canvas after all rows: flipped under a set sprite bit, else as before. -/
theorem Canvas.drawRows_pixel (d : Canvas) (x0 y : Nat) (rows : List Byte) (hl : rows.length ≤ 32) (q : Fin 32)
    (e : Fin 64) :
    ((∃ i, ∃ h : i < rows.length, ∃ k < 8, rows[i].getLsbD (7 - k) = true ∧ q = wrapRow (y + i) ∧
        e = wrapCol (x0 + k)) →
      ((d.drawRows x0 y rows).disp.get q).getLsbD e.val = !(d.disp.get q).getLsbD e.val) ∧
    ((¬ ∃ i, ∃ h : i < rows.length, ∃ k < 8, rows[i].getLsbD (7 - k) = true ∧ q = wrapRow (y + i) ∧
        e = wrapCol (x0 + k)) →
      ((d.drawRows x0 y rows).disp.get q).getLsbD e.val = (d.disp.get q).getLsbD e.val) := by
  induction rows generalizing d y with
  | nil => exact ⟨by rintro ⟨i, h, -⟩; simp at h, fun _ => rfl⟩
  | cons row rows ih =>
    simp only [List.length_cons] at hl
    unfold Canvas.drawRows
    obtain ⟨ih1, ih2⟩ := ih (d.drawBits row x0 y 0 8) (y + 1) (by omega)
    rw [Canvas.drawBits_pixel _ _ _ _ 0 8 (by omega)] at ih1 ih2
    constructor
    · rintro ⟨i, hi, k, hk, hb, hr, he⟩
      cases i with
      | zero =>
        rw [Nat.add_zero] at hr
        rw [ih2, if_pos ⟨hr, k, by omega, by omega, by simpa using hb, he⟩]
        rintro ⟨i, hi', -, -, -, hr', -⟩
        have h3 : wrapRow (y + 0) = wrapRow (y + (1 + i)) := by
          rw [Nat.add_zero, ← Nat.add_assoc]; exact hr.symm.trans hr'
        have := wrapRow_inj h3 (by omega) (by omega)
        omega
      | succ i =>
        have hi' : i < rows.length := by simpa using hi
        rw [ih1 ⟨i, hi', k, hk, by simpa using hb, by rw [hr]; congr 1; omega, he⟩, if_neg]
        rintro ⟨hr', -⟩
        have h3 : wrapRow (y + 0) = wrapRow (y + (i + 1)) := hr'.symm.trans hr
        have := wrapRow_inj h3 (by omega) (by omega)
        omega
    · intro hno
      rw [ih2, if_neg]
      · rintro ⟨hr, k, -, hk, hb, he⟩
        exact hno ⟨0, by simp, k, by omega, by simpa using hb, by simpa using hr, he⟩
      · rintro ⟨i, hi, k, hk, hb, hr, he⟩
        exact hno ⟨i + 1, by simpa using hi, k, hk, by simpa using hb, by rw [hr]; congr 1; omega, he⟩

/-- `hit` after all rows: some set sprite bit lay on a pixel that was set before the first row was drawn. -/
theorem Canvas.drawRows_hit (d : Canvas) (x0 y : Nat) (rows : List Byte) (hl : rows.length ≤ 32) :
    (d.drawRows x0 y rows).hit = true ↔
      d.hit = true ∨ ∃ i, ∃ h : i < rows.length, ∃ k < 8, rows[i].getLsbD (7 - k) = true ∧
        (d.disp.get (wrapRow (y + i))).getLsbD (wrapCol (x0 + k)).val = true := by
  induction rows generalizing d y with
  | nil =>
    refine ⟨Or.inl, ?_⟩
    rintro (h | ⟨i, h, -⟩)
    · exact h
    · simp at h
  | cons row rows ih =>
    simp only [List.length_cons] at hl
    unfold Canvas.drawRows
    rw [ih _ (y + 1) (by omega), Canvas.drawBits_hit _ _ _ _ 0 8 (by omega)]
    have other : ∀ i < rows.length, ∀ e : Fin 64,
        ((d.drawBits row x0 y 0 8).disp.get (wrapRow (y + 1 + i))).getLsbD e.val =
          (d.disp.get (wrapRow (y + 1 + i))).getLsbD e.val := by
      intro i hi e
      rw [Canvas.drawBits_pixel _ _ _ _ 0 8 (by omega), if_neg]
      rintro ⟨hr, -⟩
      have h3 : wrapRow (y + (1 + i)) = wrapRow (y + 0) := by rw [Nat.add_zero, ← Nat.add_assoc]; exact hr
      have := wrapRow_inj h3 (by omega) (by omega)
      omega
    constructor
    · rintro ((h | ⟨k, -, h2, h3, h4⟩) | ⟨i, hi, k, hk, hb, hp⟩)
      · exact .inl h
      · exact .inr ⟨0, by simp, k, by omega, by simpa using h3, by simpa using h4⟩
      · rw [other i hi] at hp
        refine .inr ⟨i + 1, by simpa using hi, k, hk, by simpa using hb, ?_⟩
        rw [show y + (i + 1) = y + 1 + i by omega]; exact hp
    · rintro (h | ⟨i, hi, k, hk, hb, hp⟩)
      · exact .inl (.inl h)
      · cases i with
        | zero => exact .inl (.inr ⟨k, by omega, by omega, by simpa using hb, by simpa using hp⟩)
        | succ i =>
          have hi' : i < rows.length := by simpa using hi
          refine .inr ⟨i, hi', k, hk, by simpa using hb, ?_⟩
          rw [other i hi', show y + 1 + i = y + (i + 1) by omega]; exact hp

end Sys2Proof.Machine
end

