-- ==== Sys2Proof/Laws/Encoding.lean ====
section
/-! SUPPORT. The fields of a word that is put together from its fields, one lemma per format and field, and the two bytes
of a word. -/

namespace Sys2Proof

/-! ## Format A -/

@[simp] theorem fieldW_wordA (w : BitVec 4) (nnn : Word) : fieldW (wordA w nnn) = w := by
  apply BitVec.eq_of_toNat_eq
  simp only [fieldW, wordA, BitVec.extractLsb'_toNat, BitVec.toNat_ofNat, Nat.shiftRight_eq_div_pow]
  have := w.isLt
  omega

theorem fieldNNN_wordA (w : BitVec 4) (nnn : Word) (h : isAddress12 nnn) : fieldNNN (wordA w nnn) = nnn := by
  apply BitVec.eq_of_toNat_eq
  simp only [fieldNNN, wordA, BitVec.toNat_setWidth, BitVec.extractLsb'_toNat, BitVec.toNat_ofNat,
    Nat.shiftRight_eq_div_pow]
  have := w.isLt
  omega

/-! ## Formats XI and XS -/

@[simp] theorem fieldW_wordXI (w : BitVec 4) (x : Reg) (nn : Byte) : fieldW (wordXI w x nn) = w := by
  apply BitVec.eq_of_toNat_eq
  simp only [fieldW, wordXI, BitVec.extractLsb'_toNat, BitVec.toNat_ofNat, Nat.shiftRight_eq_div_pow]
  have := w.isLt; have := x.isLt; have := nn.isLt
  omega

@[simp] theorem regOf_fieldX_wordXI (w : BitVec 4) (x : Reg) (nn : Byte) : regOf (fieldX (wordXI w x nn)) = x := by
  apply Fin.ext
  simp only [regOf, BitVec.val_toFin, fieldX, wordXI, BitVec.extractLsb'_toNat, BitVec.toNat_ofNat,
    Nat.shiftRight_eq_div_pow]
  have := w.isLt; have := x.isLt; have := nn.isLt
  omega

@[simp] theorem fieldNN_wordXI (w : BitVec 4) (x : Reg) (nn : Byte) : fieldNN (wordXI w x nn) = nn := by
  apply BitVec.eq_of_toNat_eq
  simp only [fieldNN, wordXI, BitVec.extractLsb'_toNat, BitVec.toNat_ofNat, Nat.shiftRight_eq_div_pow]
  have := w.isLt; have := x.isLt; have := nn.isLt
  omega

/-! ## Formats XY and XYN -/

@[simp] theorem fieldW_wordXY (w : BitVec 4) (x y : Reg) (n : BitVec 4) : fieldW (wordXY w x y n) = w := by
  apply BitVec.eq_of_toNat_eq
  simp only [fieldW, wordXY, BitVec.extractLsb'_toNat, BitVec.toNat_ofNat, Nat.shiftRight_eq_div_pow]
  have := w.isLt; have := x.isLt; have := y.isLt; have := n.isLt
  omega

@[simp] theorem regOf_fieldX_wordXY (w : BitVec 4) (x y : Reg) (n : BitVec 4) :
    regOf (fieldX (wordXY w x y n)) = x := by
  apply Fin.ext
  simp only [regOf, BitVec.val_toFin, fieldX, wordXY, BitVec.extractLsb'_toNat, BitVec.toNat_ofNat,
    Nat.shiftRight_eq_div_pow]
  have := w.isLt; have := x.isLt; have := y.isLt; have := n.isLt
  omega

@[simp] theorem regOf_fieldY_wordXY (w : BitVec 4) (x y : Reg) (n : BitVec 4) :
    regOf (fieldY (wordXY w x y n)) = y := by
  apply Fin.ext
  simp only [regOf, BitVec.val_toFin, fieldY, wordXY, BitVec.extractLsb'_toNat, BitVec.toNat_ofNat,
    Nat.shiftRight_eq_div_pow]
  have := w.isLt; have := x.isLt; have := y.isLt; have := n.isLt
  omega

@[simp] theorem fieldN_wordXY (w : BitVec 4) (x y : Reg) (n : BitVec 4) : fieldN (wordXY w x y n) = n := by
  apply BitVec.eq_of_toNat_eq
  simp only [fieldN, wordXY, BitVec.extractLsb'_toNat, BitVec.toNat_ofNat, Nat.shiftRight_eq_div_pow]
  have := w.isLt; have := x.isLt; have := y.isLt; have := n.isLt
  omega

/-! ## Bytes -/

/-- A word laid out in memory, high byte first, is read back (R65). -/
@[simp] theorem wordOfBytes_highByte_lowByte (w : Word) : wordOfBytes (highByte w) (lowByte w) = w := by
  apply BitVec.eq_of_toNat_eq
  simp only [wordOfBytes, highByte, lowByte, BitVec.extractLsb'_toNat, BitVec.toNat_ofNat, Nat.shiftRight_eq_div_pow]
  have := w.isLt
  omega

/-! ## The masks of the opcode map -/

/-- Mask 0xF000 looks at `W` alone (R94). -/
theorem selects_F000 (op v : Word) (hv : v &&& 0xF000 = v) : op &&& 0xF000 = v ↔ fieldW op = fieldW v := by
  constructor
  · rintro rfl
    apply BitVec.eq_of_getLsbD_eq; intro i hi
    interval_cases i <;> simp [fieldW]
  · intro h
    rw [← hv]; clear hv
    apply BitVec.eq_of_getLsbD_eq; intro i hi
    have h' := fun j => congrArg (fun b => b.getLsbD j) h
    simp only [fieldW, BitVec.getLsbD_extractLsb'] at h'
    have h0 := h' 0; have h1 := h' 1; have h2 := h' 2; have h3 := h' 3
    interval_cases i <;> simp_all

/-- Mask 0xF00F looks at `W` and `N` (R94). -/
theorem selects_F00F (op v : Word) (hv : v &&& 0xF00F = v) :
    op &&& 0xF00F = v ↔ fieldW op = fieldW v ∧ fieldN op = fieldN v := by
  constructor
  · rintro rfl
    constructor <;> (apply BitVec.eq_of_getLsbD_eq; intro i hi; interval_cases i <;> simp [fieldW, fieldN])
  · rintro ⟨h, g⟩
    rw [← hv]; clear hv
    apply BitVec.eq_of_getLsbD_eq; intro i hi
    have h' := fun j => congrArg (fun b => b.getLsbD j) h
    have g' := fun j => congrArg (fun b => b.getLsbD j) g
    simp only [fieldW, fieldN, BitVec.getLsbD_extractLsb'] at h' g'
    have h0 := h' 0; have h1 := h' 1; have h2 := h' 2; have h3 := h' 3
    have g0 := g' 0; have g1 := g' 1; have g2 := g' 2; have g3 := g' 3
    interval_cases i <;> simp_all

/-- Mask 0xF0FF looks at `W` and `NN` (R94). -/
theorem selects_F0FF (op v : Word) (hv : v &&& 0xF0FF = v) :
    op &&& 0xF0FF = v ↔ fieldW op = fieldW v ∧ fieldNN op = fieldNN v := by
  constructor
  · rintro rfl
    constructor <;> (apply BitVec.eq_of_getLsbD_eq; intro i hi; interval_cases i <;> simp [fieldW, fieldNN])
  · rintro ⟨h, g⟩
    rw [← hv]; clear hv
    apply BitVec.eq_of_getLsbD_eq; intro i hi
    have h' := fun j => congrArg (fun b => b.getLsbD j) h
    have g' := fun j => congrArg (fun b => b.getLsbD j) g
    simp only [fieldW, fieldNN, BitVec.getLsbD_extractLsb'] at h' g'
    have h0 := h' 0; have h1 := h' 1; have h2 := h' 2; have h3 := h' 3
    have g0 := g' 0; have g1 := g' 1; have g2 := g' 2; have g3 := g' 3
    have g4 := g' 4; have g5 := g' 5; have g6 := g' 6; have g7 := g' 7
    interval_cases i <;> simp_all

end Sys2Proof
end

