-- ==== Sys2Proof/Laws/Faults.lean ====
section
/-! SUPPORT. What fault entry does, said once (60_exceptions.md R303), and the numbers of the codes (R300). -/

namespace Sys2Proof.Machine

open Sys2Proof.Safety

/-- Fault entry writes the record and the halt, and nothing else. -/
theorem State.faultsWith_raise (s : State) (code : FaultCode) (op : Word) (addr : Nat) :
    FaultsWith s (s.raise code op addr) code op addr := by
  refine ⟨rfl, rfl, rfl, fun p hp => ?_⟩
  cases p with
  | faultRecord => exact absurd rfl hp
  | scheduler => exact ⟨rfl, rfl, rfl, rfl⟩
  | _ => rfl

/-- No two codes share a number. -/
theorem FaultCode.number_inj {c d : FaultCode} (h : c.number = d.number) : c = d := by
  cases c <;> cases d <;> first | rfl | exact absurd h (by decide)

end Sys2Proof.Machine
end

