-- ==== Sys2Proof/Laws/PerInstr.lean ====
section
/-! SUPPORT. Statements made per instruction. Family `WordInRow`: the word of an instruction is selected by the
instruction's row of the opcode map (30_encoding.md R94, R95), and that row is in the map. -/

open Sys2Proof

/-- The word of the instruction matches its row of R95. -/
def Sys2Proof.Laws.WordInRow.Statement (i : Sys2Proof.Instr) : Prop := (opRow i).Selects (encode i) ∧ opRow i ∈ opcodeMap

/-! ## One lemma per mask and format -/

theorem Sys2Proof.Laws.selects_wordA (v : Word) (nnn : Word) (hv : v &&& 0xF000 = v) :
    wordA (fieldW v) nnn &&& 0xF000 = v := (selects_F000 _ _ hv).2 (by simp)

theorem Sys2Proof.Laws.selects_wordXI (v : Word) (x : Reg) (nn : Byte) (hv : v &&& 0xF000 = v) :
    wordXI (fieldW v) x nn &&& 0xF000 = v := (selects_F000 _ _ hv).2 (by simp)

theorem Sys2Proof.Laws.selects_wordXYN (v : Word) (x y : Reg) (n : BitVec 4) (hv : v &&& 0xF000 = v) :
    wordXY (fieldW v) x y n &&& 0xF000 = v := (selects_F000 _ _ hv).2 (by simp)

theorem Sys2Proof.Laws.selects_wordXY (v : Word) (x y : Reg) (hv : v &&& 0xF00F = v) :
    wordXY (fieldW v) x y (fieldN v) &&& 0xF00F = v := (selects_F00F _ _ hv).2 (by simp)

theorem Sys2Proof.Laws.selects_wordXS (v : Word) (x : Reg) (hv : v &&& 0xF0FF = v) :
    wordXI (fieldW v) x (fieldNN v) &&& 0xF0FF = v := (selects_F0FF _ _ hv).2 (by simp)

/-! ## One lemma per constructor -/

theorem Sys2Proof.Laws.WordInRow.cls : Sys2Proof.Laws.WordInRow.Statement .cls := by constructor <;> decide

theorem Sys2Proof.Laws.WordInRow.ret : Sys2Proof.Laws.WordInRow.Statement .ret := by constructor <;> decide

theorem Sys2Proof.Laws.WordInRow.jp (nnn : Word) : Sys2Proof.Laws.WordInRow.Statement (.jp nnn) :=
  ⟨Sys2Proof.Laws.selects_wordA 0x1000 nnn (by decide), by simp [opRow, opcodeMap]⟩

theorem Sys2Proof.Laws.WordInRow.call (nnn : Word) : Sys2Proof.Laws.WordInRow.Statement (.call nnn) :=
  ⟨Sys2Proof.Laws.selects_wordA 0x2000 nnn (by decide), by simp [opRow, opcodeMap]⟩

theorem Sys2Proof.Laws.WordInRow.seImm (x : Reg) (nn : Byte) : Sys2Proof.Laws.WordInRow.Statement (.seImm x nn) :=
  ⟨Sys2Proof.Laws.selects_wordXI 0x3000 x nn (by decide), by simp [opRow, opcodeMap]⟩

theorem Sys2Proof.Laws.WordInRow.sneImm (x : Reg) (nn : Byte) : Sys2Proof.Laws.WordInRow.Statement (.sneImm x nn) :=
  ⟨Sys2Proof.Laws.selects_wordXI 0x4000 x nn (by decide), by simp [opRow, opcodeMap]⟩

theorem Sys2Proof.Laws.WordInRow.seReg (x y : Reg) : Sys2Proof.Laws.WordInRow.Statement (.seReg x y) :=
  ⟨Sys2Proof.Laws.selects_wordXY 0x5000 x y (by decide), by simp [opRow, opcodeMap]⟩

theorem Sys2Proof.Laws.WordInRow.ldImm (x : Reg) (nn : Byte) : Sys2Proof.Laws.WordInRow.Statement (.ldImm x nn) :=
  ⟨Sys2Proof.Laws.selects_wordXI 0x6000 x nn (by decide), by simp [opRow, opcodeMap]⟩

theorem Sys2Proof.Laws.WordInRow.addImm (x : Reg) (nn : Byte) : Sys2Proof.Laws.WordInRow.Statement (.addImm x nn) :=
  ⟨Sys2Proof.Laws.selects_wordXI 0x7000 x nn (by decide), by simp [opRow, opcodeMap]⟩

theorem Sys2Proof.Laws.WordInRow.ldReg (x y : Reg) : Sys2Proof.Laws.WordInRow.Statement (.ldReg x y) :=
  ⟨Sys2Proof.Laws.selects_wordXY 0x8000 x y (by decide), by simp [opRow, opcodeMap]⟩

theorem Sys2Proof.Laws.WordInRow.orReg (x y : Reg) : Sys2Proof.Laws.WordInRow.Statement (.orReg x y) :=
  ⟨Sys2Proof.Laws.selects_wordXY 0x8001 x y (by decide), by simp [opRow, opcodeMap]⟩

theorem Sys2Proof.Laws.WordInRow.andReg (x y : Reg) : Sys2Proof.Laws.WordInRow.Statement (.andReg x y) :=
  ⟨Sys2Proof.Laws.selects_wordXY 0x8002 x y (by decide), by simp [opRow, opcodeMap]⟩

theorem Sys2Proof.Laws.WordInRow.xorReg (x y : Reg) : Sys2Proof.Laws.WordInRow.Statement (.xorReg x y) :=
  ⟨Sys2Proof.Laws.selects_wordXY 0x8003 x y (by decide), by simp [opRow, opcodeMap]⟩

theorem Sys2Proof.Laws.WordInRow.addReg (x y : Reg) : Sys2Proof.Laws.WordInRow.Statement (.addReg x y) :=
  ⟨Sys2Proof.Laws.selects_wordXY 0x8004 x y (by decide), by simp [opRow, opcodeMap]⟩

theorem Sys2Proof.Laws.WordInRow.subReg (x y : Reg) : Sys2Proof.Laws.WordInRow.Statement (.subReg x y) :=
  ⟨Sys2Proof.Laws.selects_wordXY 0x8005 x y (by decide), by simp [opRow, opcodeMap]⟩

theorem Sys2Proof.Laws.WordInRow.shr (x y : Reg) : Sys2Proof.Laws.WordInRow.Statement (.shr x y) :=
  ⟨Sys2Proof.Laws.selects_wordXY 0x8006 x y (by decide), by simp [opRow, opcodeMap]⟩

theorem Sys2Proof.Laws.WordInRow.subnReg (x y : Reg) : Sys2Proof.Laws.WordInRow.Statement (.subnReg x y) :=
  ⟨Sys2Proof.Laws.selects_wordXY 0x8007 x y (by decide), by simp [opRow, opcodeMap]⟩

theorem Sys2Proof.Laws.WordInRow.shl (x y : Reg) : Sys2Proof.Laws.WordInRow.Statement (.shl x y) :=
  ⟨Sys2Proof.Laws.selects_wordXY 0x800E x y (by decide), by simp [opRow, opcodeMap]⟩

theorem Sys2Proof.Laws.WordInRow.sneReg (x y : Reg) : Sys2Proof.Laws.WordInRow.Statement (.sneReg x y) :=
  ⟨Sys2Proof.Laws.selects_wordXY 0x9000 x y (by decide), by simp [opRow, opcodeMap]⟩

theorem Sys2Proof.Laws.WordInRow.ldI (nnn : Word) : Sys2Proof.Laws.WordInRow.Statement (.ldI nnn) :=
  ⟨Sys2Proof.Laws.selects_wordA 0xA000 nnn (by decide), by simp [opRow, opcodeMap]⟩

theorem Sys2Proof.Laws.WordInRow.jpV0 (nnn : Word) : Sys2Proof.Laws.WordInRow.Statement (.jpV0 nnn) :=
  ⟨Sys2Proof.Laws.selects_wordA 0xB000 nnn (by decide), by simp [opRow, opcodeMap]⟩

theorem Sys2Proof.Laws.WordInRow.rnd (x : Reg) (nn : Byte) : Sys2Proof.Laws.WordInRow.Statement (.rnd x nn) :=
  ⟨Sys2Proof.Laws.selects_wordXI 0xC000 x nn (by decide), by simp [opRow, opcodeMap]⟩

theorem Sys2Proof.Laws.WordInRow.drw (x y : Reg) (n : Fin 16) : Sys2Proof.Laws.WordInRow.Statement (.drw x y n) :=
  ⟨Sys2Proof.Laws.selects_wordXYN 0xD000 x y _ (by decide), by simp [opRow, opcodeMap]⟩

theorem Sys2Proof.Laws.WordInRow.skp (x : Reg) : Sys2Proof.Laws.WordInRow.Statement (.skp x) :=
  ⟨Sys2Proof.Laws.selects_wordXS 0xE09E x (by decide), by simp [opRow, opcodeMap]⟩

theorem Sys2Proof.Laws.WordInRow.sknp (x : Reg) : Sys2Proof.Laws.WordInRow.Statement (.sknp x) :=
  ⟨Sys2Proof.Laws.selects_wordXS 0xE0A1 x (by decide), by simp [opRow, opcodeMap]⟩

theorem Sys2Proof.Laws.WordInRow.ldFromDt (x : Reg) : Sys2Proof.Laws.WordInRow.Statement (.ldFromDt x) :=
  ⟨Sys2Proof.Laws.selects_wordXS 0xF007 x (by decide), by simp [opRow, opcodeMap]⟩

theorem Sys2Proof.Laws.WordInRow.ldKey (x : Reg) : Sys2Proof.Laws.WordInRow.Statement (.ldKey x) :=
  ⟨Sys2Proof.Laws.selects_wordXS 0xF00A x (by decide), by simp [opRow, opcodeMap]⟩

theorem Sys2Proof.Laws.WordInRow.ldToDt (x : Reg) : Sys2Proof.Laws.WordInRow.Statement (.ldToDt x) :=
  ⟨Sys2Proof.Laws.selects_wordXS 0xF015 x (by decide), by simp [opRow, opcodeMap]⟩

theorem Sys2Proof.Laws.WordInRow.ldToSt (x : Reg) : Sys2Proof.Laws.WordInRow.Statement (.ldToSt x) :=
  ⟨Sys2Proof.Laws.selects_wordXS 0xF018 x (by decide), by simp [opRow, opcodeMap]⟩

theorem Sys2Proof.Laws.WordInRow.addI (x : Reg) : Sys2Proof.Laws.WordInRow.Statement (.addI x) :=
  ⟨Sys2Proof.Laws.selects_wordXS 0xF01E x (by decide), by simp [opRow, opcodeMap]⟩

theorem Sys2Proof.Laws.WordInRow.ldFont (x : Reg) : Sys2Proof.Laws.WordInRow.Statement (.ldFont x) :=
  ⟨Sys2Proof.Laws.selects_wordXS 0xF029 x (by decide), by simp [opRow, opcodeMap]⟩

theorem Sys2Proof.Laws.WordInRow.ldBcd (x : Reg) : Sys2Proof.Laws.WordInRow.Statement (.ldBcd x) :=
  ⟨Sys2Proof.Laws.selects_wordXS 0xF033 x (by decide), by simp [opRow, opcodeMap]⟩

theorem Sys2Proof.Laws.WordInRow.dump (x : Reg) : Sys2Proof.Laws.WordInRow.Statement (.dump x) :=
  ⟨Sys2Proof.Laws.selects_wordXS 0xF055 x (by decide), by simp [opRow, opcodeMap]⟩

theorem Sys2Proof.Laws.WordInRow.load (x : Reg) : Sys2Proof.Laws.WordInRow.Statement (.load x) :=
  ⟨Sys2Proof.Laws.selects_wordXS 0xF065 x (by decide), by simp [opRow, opcodeMap]⟩
end

