-- ==== Sys2Proof/Laws/Scheduler.lean ====
section
/-! SUPPORT. What one transition of the scheduler can be, said once (47_scheduler.md R262, R263), the periods, and a run
of steps taken apart. -/

namespace Sys2Proof.Machine

/-! ## Periods (R260) -/

/-- The constraint of R7 makes the instruction period positive. -/
theorem State.periodI_pos {s : State} (h : s.params.wellFormed) : 0 < s.periodI :=
  Nat.div_pos (Nat.le_of_dvd h.2.1 (Nat.dvd_of_mod_eq_zero h.2.2.1)) h.1

/-- The constraint of R7 makes the timer period positive. -/
theorem State.periodT_pos {s : State} (h : s.params.wellFormed) : 0 < s.periodT :=
  Nat.div_pos (Nat.le_of_dvd h.2.1 (Nat.dvd_of_mod_eq_zero h.2.2.2.1)) (by decide)

/-- The constraint of R7 makes the render period positive. -/
theorem State.periodR_pos {s : State} (h : s.params.wellFormed) : 0 < s.periodR :=
  Nat.div_pos (Nat.le_of_dvd h.2.1 (Nat.dvd_of_mod_eq_zero h.2.2.2.2)) (by decide)

/-! ## Which transition is due -/

theorem State.due_eq_step {s : State} : s.due = .step ↔ s.periodI ≤ s.accI := by
  unfold State.due; split_ifs <;> simp_all

theorem State.due_eq_timerTick {s : State} : s.due = .timerTick ↔ s.accI < s.periodI ∧ s.periodT ≤ s.accT := by
  unfold State.due; split_ifs <;> simp_all

theorem State.due_eq_renderTick {s : State} :
    s.due = .renderTick ↔ s.accI < s.periodI ∧ s.accT < s.periodT ∧ s.periodR ≤ s.accR := by
  unfold State.due; split_ifs <;> simp_all

theorem State.due_eq_beginIterate {s : State} :
    s.due = .beginIterate ↔ s.accI < s.periodI ∧ s.accT < s.periodT ∧ s.accR < s.periodR := by
  unfold State.due; split_ifs <;> simp_all

/-- Everything a transition with a next state can be. -/
theorem schedule_cases {s t : State} (h : schedule s = .next t) :
    (s.halted = true ∧ t = s) ∨
    (s.halted = false ∧ s.params.wellFormed ∧
      ((s.periodI ≤ s.accI ∧ instructionStep { s with accI := s.accI - s.periodI } = .next t) ∨
       (s.accI < s.periodI ∧ s.periodT ≤ s.accT ∧ t = State.timerTick { s with accT := s.accT - s.periodT }) ∨
       (s.accI < s.periodI ∧ s.accT < s.periodT ∧ s.periodR ≤ s.accR ∧ t = { s with accR := s.accR - s.periodR }) ∨
       (s.accI < s.periodI ∧ s.accT < s.periodT ∧ s.accR < s.periodR ∧ t = s.drawn.beginIterate s.clockNow))) := by
  unfold schedule at h
  split_ifs at h with hh hp
  · cases h; exact .inl ⟨hh, rfl⟩
  · refine .inr ⟨by simpa using hh, hp, ?_⟩
    cases hd : s.due with
    | step => rw [hd] at h; exact .inl ⟨State.due_eq_step.1 hd, h⟩
    | timerTick =>
      rw [hd] at h; cases h
      obtain ⟨h1, h2⟩ := State.due_eq_timerTick.1 hd
      exact .inr (.inl ⟨h1, h2, rfl⟩)
    | renderTick =>
      rw [hd] at h; cases h
      obtain ⟨h1, h2, h3⟩ := State.due_eq_renderTick.1 hd
      exact .inr (.inr (.inl ⟨h1, h2, h3, rfl⟩))
    | beginIterate =>
      rw [hd] at h; cases h
      obtain ⟨h1, h2, h3⟩ := State.due_eq_beginIterate.1 hd
      exact .inr (.inr (.inr ⟨h1, h2, h3, rfl⟩))

/-! ## Runs of steps -/

open Sys2Proof.Safety

theorem run_of_next (M : Host.Core) (k : Nat) {s t : M.State} (h : M.step s = .next t) : M.run (k + 1) s = M.run k t := by
  simp only [Host.Core.run, h]

theorem run_of_fault (M : Host.Core) (k : Nat) {s : M.State} {r : M.Fault} (h : M.step s = .fault r) :
    M.run (k + 1) s = .fault r := by simp only [Host.Core.run, h]

theorem run_of_refused (M : Host.Core) (k : Nat) {s : M.State} {r : M.Refusal} (h : M.step s = .refused r) :
    M.run (k + 1) s = .refused r := by simp only [Host.Core.run, h]

/-- A run whose first step has a next state. -/
theorem runSteps_succ {s t : State} (k : Nat) (h : step s = .next t) : runSteps (k + 1) s = runSteps k t :=
  run_of_next Sys2Proof.core k h

/-- Two runs one after the other. -/
theorem runSteps_add {j : Nat} (k : Nat) {s t : State} (h : runSteps j s = .next t) :
    runSteps (j + k) s = runSteps k t := by
  induction j generalizing s with
  | zero => cases h; rw [Nat.zero_add]
  | succ j ih =>
    cases hs : step s with
    | next u =>
      rw [runSteps_succ j hs] at h
      rw [Nat.add_right_comm, runSteps_succ (j + k) hs]
      exact ih h
    | fault r => cases h.symm.trans (run_of_fault Sys2Proof.core j hs)
    | refused r => cases h.symm.trans (run_of_refused Sys2Proof.core j hs)

end Sys2Proof.Machine
end

