-- ==== Sys2Proof/Laws/Updates.lean ====
section
/-! SUPPORT. What the compound updates (`skipIf`, `setRegs`, `setByte`, `setBytes`) leave of the state, one lemma per field
and per observation. -/

namespace Sys2Proof.Machine.State

/-! ## `skipIf` -/

@[simp] theorem skipIf_pc (s : State) (c : Bool) : (s.skipIf c).pc = if c then s.pc + 2 else s.pc := by rw [State.skipIf_eq]
@[simp] theorem skipIf_v (s : State) (c : Bool) : (s.skipIf c).v = s.v := by rw [State.skipIf_eq]
@[simp] theorem skipIf_i (s : State) (c : Bool) : (s.skipIf c).i = s.i := by rw [State.skipIf_eq]
@[simp] theorem skipIf_sp (s : State) (c : Bool) : (s.skipIf c).sp = s.sp := by rw [State.skipIf_eq]
@[simp] theorem skipIf_stack (s : State) (c : Bool) : (s.skipIf c).stack = s.stack := by rw [State.skipIf_eq]
@[simp] theorem skipIf_dt (s : State) (c : Bool) : (s.skipIf c).dt = s.dt := by rw [State.skipIf_eq]
@[simp] theorem skipIf_st (s : State) (c : Bool) : (s.skipIf c).st = s.st := by rw [State.skipIf_eq]
@[simp] theorem skipIf_disp (s : State) (c : Bool) : (s.skipIf c).disp = s.disp := by rw [State.skipIf_eq]
@[simp] theorem skipIf_mem (s : State) (c : Bool) : (s.skipIf c).mem = s.mem := by rw [State.skipIf_eq]
@[simp] theorem skipIf_accI (s : State) (c : Bool) : (s.skipIf c).accI = s.accI := by rw [State.skipIf_eq]
@[simp] theorem skipIf_accT (s : State) (c : Bool) : (s.skipIf c).accT = s.accT := by rw [State.skipIf_eq]
@[simp] theorem skipIf_accR (s : State) (c : Bool) : (s.skipIf c).accR = s.accR := by rw [State.skipIf_eq]
@[simp] theorem skipIf_lastTime (s : State) (c : Bool) : (s.skipIf c).lastTime = s.lastTime := by rw [State.skipIf_eq]
@[simp] theorem skipIf_halted (s : State) (c : Bool) : (s.skipIf c).halted = s.halted := by rw [State.skipIf_eq]
@[simp] theorem skipIf_fault (s : State) (c : Bool) : (s.skipIf c).fault = s.fault := by rw [State.skipIf_eq]
@[simp] theorem skipIf_params (s : State) (c : Bool) : (s.skipIf c).params = s.params := by rw [State.skipIf_eq]
@[simp] theorem skipIf_draws (s : State) (c : Bool) : (s.skipIf c).draws = s.draws := by rw [State.skipIf_eq]
@[simp] theorem skipIf_loadOpen (s : State) (c : Bool) : (s.skipIf c).loadOpen = s.loadOpen := by rw [State.skipIf_eq]
@[simp] theorem skipIf_getV (s : State) (c : Bool) (q : Reg) : (s.skipIf c).getV q = s.getV q := by rw [State.skipIf_eq]; rfl
@[simp] theorem skipIf_slot (s : State) (c : Bool) (j : Fin 16) : (s.skipIf c).slot j = s.slot j := by rw [State.skipIf_eq]; rfl
@[simp] theorem skipIf_pixel (s : State) (c : Bool) (r : Fin 32) (d : Fin 64) : (s.skipIf c).pixel r d = s.pixel r d := by rw [State.skipIf_eq]; rfl
@[simp] theorem skipIf_byteAt (s : State) (c : Bool) (a : Nat) : (s.skipIf c).byteAt a = s.byteAt a := by rw [State.skipIf_eq]; rfl

/-! ## `setRegs` -/

@[simp] theorem setRegs_i (s : State) (k : Nat) (bs : List Byte) : (s.setRegs k bs).i = s.i := by rw [State.setRegs_eq]
@[simp] theorem setRegs_pc (s : State) (k : Nat) (bs : List Byte) : (s.setRegs k bs).pc = s.pc := by rw [State.setRegs_eq]
@[simp] theorem setRegs_sp (s : State) (k : Nat) (bs : List Byte) : (s.setRegs k bs).sp = s.sp := by rw [State.setRegs_eq]
@[simp] theorem setRegs_stack (s : State) (k : Nat) (bs : List Byte) : (s.setRegs k bs).stack = s.stack := by rw [State.setRegs_eq]
@[simp] theorem setRegs_dt (s : State) (k : Nat) (bs : List Byte) : (s.setRegs k bs).dt = s.dt := by rw [State.setRegs_eq]
@[simp] theorem setRegs_st (s : State) (k : Nat) (bs : List Byte) : (s.setRegs k bs).st = s.st := by rw [State.setRegs_eq]
@[simp] theorem setRegs_disp (s : State) (k : Nat) (bs : List Byte) : (s.setRegs k bs).disp = s.disp := by rw [State.setRegs_eq]
@[simp] theorem setRegs_mem (s : State) (k : Nat) (bs : List Byte) : (s.setRegs k bs).mem = s.mem := by rw [State.setRegs_eq]
@[simp] theorem setRegs_accI (s : State) (k : Nat) (bs : List Byte) : (s.setRegs k bs).accI = s.accI := by rw [State.setRegs_eq]
@[simp] theorem setRegs_accT (s : State) (k : Nat) (bs : List Byte) : (s.setRegs k bs).accT = s.accT := by rw [State.setRegs_eq]
@[simp] theorem setRegs_accR (s : State) (k : Nat) (bs : List Byte) : (s.setRegs k bs).accR = s.accR := by rw [State.setRegs_eq]
@[simp] theorem setRegs_lastTime (s : State) (k : Nat) (bs : List Byte) : (s.setRegs k bs).lastTime = s.lastTime := by rw [State.setRegs_eq]
@[simp] theorem setRegs_halted (s : State) (k : Nat) (bs : List Byte) : (s.setRegs k bs).halted = s.halted := by rw [State.setRegs_eq]
@[simp] theorem setRegs_fault (s : State) (k : Nat) (bs : List Byte) : (s.setRegs k bs).fault = s.fault := by rw [State.setRegs_eq]
@[simp] theorem setRegs_params (s : State) (k : Nat) (bs : List Byte) : (s.setRegs k bs).params = s.params := by rw [State.setRegs_eq]
@[simp] theorem setRegs_draws (s : State) (k : Nat) (bs : List Byte) : (s.setRegs k bs).draws = s.draws := by rw [State.setRegs_eq]
@[simp] theorem setRegs_loadOpen (s : State) (k : Nat) (bs : List Byte) : (s.setRegs k bs).loadOpen = s.loadOpen := by rw [State.setRegs_eq]
@[simp] theorem setRegs_slot (s : State) (k : Nat) (bs : List Byte) (j : Fin 16) : (s.setRegs k bs).slot j = s.slot j := by rw [State.setRegs_eq]; rfl
@[simp] theorem setRegs_pixel (s : State) (k : Nat) (bs : List Byte) (r : Fin 32) (c : Fin 64) : (s.setRegs k bs).pixel r c = s.pixel r c := by rw [State.setRegs_eq]; rfl
@[simp] theorem setRegs_byteAt (s : State) (k : Nat) (bs : List Byte) (a : Nat) : (s.setRegs k bs).byteAt a = s.byteAt a := by rw [State.setRegs_eq]; rfl

/-! ## `setByte` -/

@[simp] theorem setByte_v (s : State) (n : Nat) (b : Byte) : (s.setByte n b).v = s.v := by rw [State.setByte_eq]
@[simp] theorem setByte_i (s : State) (n : Nat) (b : Byte) : (s.setByte n b).i = s.i := by rw [State.setByte_eq]
@[simp] theorem setByte_pc (s : State) (n : Nat) (b : Byte) : (s.setByte n b).pc = s.pc := by rw [State.setByte_eq]
@[simp] theorem setByte_sp (s : State) (n : Nat) (b : Byte) : (s.setByte n b).sp = s.sp := by rw [State.setByte_eq]
@[simp] theorem setByte_stack (s : State) (n : Nat) (b : Byte) : (s.setByte n b).stack = s.stack := by rw [State.setByte_eq]
@[simp] theorem setByte_dt (s : State) (n : Nat) (b : Byte) : (s.setByte n b).dt = s.dt := by rw [State.setByte_eq]
@[simp] theorem setByte_st (s : State) (n : Nat) (b : Byte) : (s.setByte n b).st = s.st := by rw [State.setByte_eq]
@[simp] theorem setByte_disp (s : State) (n : Nat) (b : Byte) : (s.setByte n b).disp = s.disp := by rw [State.setByte_eq]
@[simp] theorem setByte_accI (s : State) (n : Nat) (b : Byte) : (s.setByte n b).accI = s.accI := by rw [State.setByte_eq]
@[simp] theorem setByte_accT (s : State) (n : Nat) (b : Byte) : (s.setByte n b).accT = s.accT := by rw [State.setByte_eq]
@[simp] theorem setByte_accR (s : State) (n : Nat) (b : Byte) : (s.setByte n b).accR = s.accR := by rw [State.setByte_eq]
@[simp] theorem setByte_lastTime (s : State) (n : Nat) (b : Byte) : (s.setByte n b).lastTime = s.lastTime := by rw [State.setByte_eq]
@[simp] theorem setByte_halted (s : State) (n : Nat) (b : Byte) : (s.setByte n b).halted = s.halted := by rw [State.setByte_eq]
@[simp] theorem setByte_fault (s : State) (n : Nat) (b : Byte) : (s.setByte n b).fault = s.fault := by rw [State.setByte_eq]
@[simp] theorem setByte_params (s : State) (n : Nat) (b : Byte) : (s.setByte n b).params = s.params := by rw [State.setByte_eq]
@[simp] theorem setByte_draws (s : State) (n : Nat) (b : Byte) : (s.setByte n b).draws = s.draws := by rw [State.setByte_eq]
@[simp] theorem setByte_loadOpen (s : State) (n : Nat) (b : Byte) : (s.setByte n b).loadOpen = s.loadOpen := by rw [State.setByte_eq]
@[simp] theorem setByte_getV (s : State) (n : Nat) (b : Byte) (q : Reg) : (s.setByte n b).getV q = s.getV q := by rw [State.setByte_eq]; rfl
@[simp] theorem setByte_slot (s : State) (n : Nat) (b : Byte) (j : Fin 16) : (s.setByte n b).slot j = s.slot j := by rw [State.setByte_eq]; rfl
@[simp] theorem setByte_pixel (s : State) (n : Nat) (b : Byte) (r : Fin 32) (c : Fin 64) : (s.setByte n b).pixel r c = s.pixel r c := by rw [State.setByte_eq]; rfl

/-! ## `setBytes` -/

@[simp] theorem setBytes_v (s : State) (n : Nat) (bs : List Byte) : (s.setBytes n bs).v = s.v := by rw [State.setBytes_eq]
@[simp] theorem setBytes_i (s : State) (n : Nat) (bs : List Byte) : (s.setBytes n bs).i = s.i := by rw [State.setBytes_eq]
@[simp] theorem setBytes_pc (s : State) (n : Nat) (bs : List Byte) : (s.setBytes n bs).pc = s.pc := by rw [State.setBytes_eq]
@[simp] theorem setBytes_sp (s : State) (n : Nat) (bs : List Byte) : (s.setBytes n bs).sp = s.sp := by rw [State.setBytes_eq]
@[simp] theorem setBytes_stack (s : State) (n : Nat) (bs : List Byte) : (s.setBytes n bs).stack = s.stack := by rw [State.setBytes_eq]
@[simp] theorem setBytes_dt (s : State) (n : Nat) (bs : List Byte) : (s.setBytes n bs).dt = s.dt := by rw [State.setBytes_eq]
@[simp] theorem setBytes_st (s : State) (n : Nat) (bs : List Byte) : (s.setBytes n bs).st = s.st := by rw [State.setBytes_eq]
@[simp] theorem setBytes_disp (s : State) (n : Nat) (bs : List Byte) : (s.setBytes n bs).disp = s.disp := by rw [State.setBytes_eq]
@[simp] theorem setBytes_accI (s : State) (n : Nat) (bs : List Byte) : (s.setBytes n bs).accI = s.accI := by rw [State.setBytes_eq]
@[simp] theorem setBytes_accT (s : State) (n : Nat) (bs : List Byte) : (s.setBytes n bs).accT = s.accT := by rw [State.setBytes_eq]
@[simp] theorem setBytes_accR (s : State) (n : Nat) (bs : List Byte) : (s.setBytes n bs).accR = s.accR := by rw [State.setBytes_eq]
@[simp] theorem setBytes_lastTime (s : State) (n : Nat) (bs : List Byte) : (s.setBytes n bs).lastTime = s.lastTime := by rw [State.setBytes_eq]
@[simp] theorem setBytes_halted (s : State) (n : Nat) (bs : List Byte) : (s.setBytes n bs).halted = s.halted := by rw [State.setBytes_eq]
@[simp] theorem setBytes_fault (s : State) (n : Nat) (bs : List Byte) : (s.setBytes n bs).fault = s.fault := by rw [State.setBytes_eq]
@[simp] theorem setBytes_params (s : State) (n : Nat) (bs : List Byte) : (s.setBytes n bs).params = s.params := by rw [State.setBytes_eq]
@[simp] theorem setBytes_draws (s : State) (n : Nat) (bs : List Byte) : (s.setBytes n bs).draws = s.draws := by rw [State.setBytes_eq]
@[simp] theorem setBytes_loadOpen (s : State) (n : Nat) (bs : List Byte) : (s.setBytes n bs).loadOpen = s.loadOpen := by rw [State.setBytes_eq]
@[simp] theorem setBytes_getV (s : State) (n : Nat) (bs : List Byte) (q : Reg) : (s.setBytes n bs).getV q = s.getV q := by rw [State.setBytes_eq]; rfl
@[simp] theorem setBytes_slot (s : State) (n : Nat) (bs : List Byte) (j : Fin 16) : (s.setBytes n bs).slot j = s.slot j := by rw [State.setBytes_eq]; rfl
@[simp] theorem setBytes_pixel (s : State) (n : Nat) (bs : List Byte) (r : Fin 32) (c : Fin 64) : (s.setBytes n bs).pixel r c = s.pixel r c := by rw [State.setBytes_eq]; rfl

end Sys2Proof.Machine.State
end

