-- ==== Sys2Proof/Tests/Slice0.lean ====
section
/-! SUPPORT. The model's own tests: the words of spec/30_encoding.md written out bit by bit, one or two single steps per
instruction taken from the vectors of spec/95_test_vectors.md (named in each comment), and a witness for the hypotheses of
every obligation that has some. -/

namespace Sys2Proof.Tests

open Sys2Proof.Machine Sys2Proof.Safety

/-! ## Helpers -/

/-- The reset state with the quirk off, `INSTR_HZ = 500`, `U = 1500`, the default font, `now = 0`: where the vectors start. -/
def start : State := State.resetWith ⟨false, 500, 1500, conventionalFont⟩ 0 0

/-- The same with the quirk on. -/
def quirky : State := State.resetWith ⟨true, 500, 1500, conventionalFont⟩ 0 0

/-- The next state, if there is one. -/
def next? : Result → Option State
  | .next t => some t
  | .fault _ => none
  | .refused _ => none

/-- One step on a word placed where it is fetched. -/
def run (w : Nat) (s : State) : Option State := next? (step (s.withFetchWord 16 w))

/-- What an iteration leaves, if it completes. -/
def iterated? (now : Nat) (s : State) : Option Iterated :=
  match iterate now s with
  | .next r => some r
  | .fault _ => none
  | .refused _ => none

/-- `SP` entries on the stack. -/
def withDepth (s : State) (n : Fin 17) : State := { s with sp := n }

/-- `pc` at an address. -/
def atPc (s : State) (a : Word) : State := { s with pc := a }

/-- The set pixels of a row, as columns. -/
def columns (s : State) (r : Fin 32) : List Nat := ((List.finRange 64).filter fun c => s.pixel r c).map Fin.val

/-! ## Decoding: every constructor, from words written out by the patterns of R95 -/

theorem test_decode_cls : decode 0b0000000011100000 = .ok .cls := by rfl
theorem test_decode_ret : decode 0b0000000011101110 = .ok .ret := by rfl
theorem test_decode_jp : decode 0b0001101010111100 = .ok (.jp 0xABC) := by rfl
theorem test_decode_call : decode 0b0010001100000000 = .ok (.call 0x300) := by rfl
theorem test_decode_seImm : decode 0b0011000100101010 = .ok (.seImm 1 0x2A) := by rfl
theorem test_decode_sneImm : decode 0b0100001000010001 = .ok (.sneImm 2 0x11) := by rfl
theorem test_decode_seReg : decode 0b0101001101000000 = .ok (.seReg 3 4) := by rfl
theorem test_decode_ldImm : decode 0b0110101000111110 = .ok (.ldImm 0xA 0x3E) := by rfl
theorem test_decode_addImm : decode 0b0111000111111111 = .ok (.addImm 1 0xFF) := by rfl
theorem test_decode_ldReg : decode 0b1000000100100000 = .ok (.ldReg 1 2) := by rfl
theorem test_decode_orReg : decode 0b1000000100100001 = .ok (.orReg 1 2) := by rfl
theorem test_decode_andReg : decode 0b1000000100100010 = .ok (.andReg 1 2) := by rfl
theorem test_decode_xorReg : decode 0b1000000100100011 = .ok (.xorReg 1 2) := by rfl
theorem test_decode_addReg : decode 0b1000101010110100 = .ok (.addReg 0xA 0xB) := by rfl
theorem test_decode_subReg : decode 0b1000000100100101 = .ok (.subReg 1 2) := by rfl
theorem test_decode_shr : decode 0b1000000100100110 = .ok (.shr 1 2) := by rfl
theorem test_decode_subnReg : decode 0b1000000100100111 = .ok (.subnReg 1 2) := by rfl
theorem test_decode_shl : decode 0b1000101010111110 = .ok (.shl 0xA 0xB) := by rfl
theorem test_decode_sneReg : decode 0b1001001101000000 = .ok (.sneReg 3 4) := by rfl
theorem test_decode_ldI : decode 0b1010001100000000 = .ok (.ldI 0x300) := by rfl
theorem test_decode_jpV0 : decode 0b1011001100000000 = .ok (.jpV0 0x300) := by rfl
theorem test_decode_rnd : decode 0b1100001100001111 = .ok (.rnd 3 0x0F) := by rfl
theorem test_decode_drw : decode 0b1101011110100101 = .ok (.drw 7 0xA 5) := by rfl
theorem test_decode_skp : decode 0b1110010110011110 = .ok (.skp 5) := by rfl
theorem test_decode_sknp : decode 0b1110010110100001 = .ok (.sknp 5) := by rfl
theorem test_decode_ldFromDt : decode 0b1111000100000111 = .ok (.ldFromDt 1) := by rfl
theorem test_decode_ldKey : decode 0b1111001100001010 = .ok (.ldKey 3) := by rfl
theorem test_decode_ldToDt : decode 0b1111000000010101 = .ok (.ldToDt 0) := by rfl
theorem test_decode_ldToSt : decode 0b1111001100011000 = .ok (.ldToSt 3) := by rfl
theorem test_decode_addI : decode 0b1111001000011110 = .ok (.addI 2) := by rfl
theorem test_decode_ldFont : decode 0b1111000100101001 = .ok (.ldFont 1) := by rfl
theorem test_decode_ldBcd : decode 0b1111000000110011 = .ok (.ldBcd 0) := by rfl
theorem test_decode_dump : decode 0b1111111101010101 = .ok (.dump 0xF) := by rfl
theorem test_decode_load : decode 0b1111001001100101 = .ok (.load 2) := by rfl

/-- EN-2: the neighbours of the family 0 words. -/
theorem test_reject_family0 : [0x00E1, 0x01E0, 0x0FEE, 0x0000, 0x0123].map decode = List.replicate 5 (.error .family0) := by
  rfl
/-- EN-4. -/
theorem test_reject_family5 : [0x5121, 0x512F].map decode = List.replicate 2 (.error .family5) := by rfl
/-- EN-3. -/
theorem test_reject_family8 :
    [0x8AB8, 0x8AB9, 0x8ABA, 0x8ABB, 0x8ABC, 0x8ABD, 0x8ABF].map decode = List.replicate 7 (.error .family8) := by rfl
/-- EN-4. -/
theorem test_reject_family9 : [0x912F, 0x9AB1].map decode = List.replicate 2 (.error .family9) := by rfl
/-- EN-5. -/
theorem test_reject_familyE : [0xE59F, 0xE500, 0xE1A0].map decode = List.replicate 3 (.error .familyE) := by rfl
/-- EN-6. -/
theorem test_reject_familyF :
    [0xF300, 0xF3FF, 0xF375, 0xF385, 0xF130].map decode = List.replicate 5 (.error .familyF) := by rfl

/-- The low bits of the table's numbering are the second byte in memory (R65, R90). -/
theorem test_table_word : decodeTableWord 16 0xD7A5 = some (.drw 7 0xA 5) := by rfl

/-! ## WellFormed refuses the terms no word stands for -/

theorem test_illformed_jp : (Instr.jp 0x1000).wellFormed = false := by decide
theorem test_illformed_call : (Instr.call 0x1000).wellFormed = false := by decide
theorem test_illformed_ldI : (Instr.ldI 0xFFFF).wellFormed = false := by decide
theorem test_illformed_jpV0 : (Instr.jpV0 0x1000).wellFormed = false := by decide
theorem test_wellformed_jp_top : (Instr.jp 0xFFF).wellFormed = true := by decide
theorem test_illformed_params_rate : ¬ Params.wellFormed ⟨false, 0, 1500, conventionalFont⟩ := by decide
theorem test_illformed_params_unit : ¬ Params.wellFormed ⟨false, 500, 0, conventionalFont⟩ := by decide
theorem test_illformed_params_instr : ¬ Params.wellFormed ⟨false, 500, 60, conventionalFont⟩ := by decide
theorem test_illformed_params_timer : ¬ Params.wellFormed ⟨false, 500, 500, conventionalFont⟩ := by decide
theorem test_wellformed_params_smallest : Params.wellFormed ⟨false, 500, 1500, conventionalFont⟩ := by decide

/-! ## Fetch and faults -/

/-- EN-7: a fetch at an odd address. -/
theorem test_fetch_odd : (run 0x6007 (atPc start 0x201)).map (fun t => (t.getV 0, t.pc)) = some (7, 0x203) := by decide
/-- EN-9. -/
theorem test_fetch_fault : (next? (step (atPc start 0xFFF).makeStepDue)).map (fun t => (t.halted, t.fault, t.pc)) =
    some (true, ⟨.fetchRange, 0xFFF, 0, 0x1000⟩, 0xFFF) := by decide
/-- UN-3 and UN-4: an unrecognised word of each kind only advances `pc`. -/
theorem test_unrecognised : [0x8128, 0x5121, 0x9AB1, 0xE19F, 0xF1FF, 0x0000].map (fun w =>
    (run w ((start.setV 1 0xAA).setV 2 0xAA)).map (fun t => (t.pc, t.halted, t.getV 1))) =
    List.replicate 6 (some (0x202, false, 0xAA)) := by decide

/-! ## Control transfer -/

/-- FL-7: the popped slot keeps its contents. -/
theorem test_ret : (run 0x00EE { atPc start 0x300 with sp := 1, stack := start.stack.set 0 0x206 }).map
    (fun t => (t.sp, t.pc, t.slot 0)) = some (0, 0x206, 0x206) := by decide
/-- FL-8. -/
theorem test_ret_empty : (run 0x00EE start).map (fun t => (t.halted, t.fault, t.pc)) =
    some (true, ⟨.stackUnderflow, 0x200, 0x00EE, 0⟩, 0x200) := by decide
/-- FL-1. -/
theorem test_jp : (run 0x1ABC start).map (fun t => t.pc) = some 0xABC := by decide
/-- FL-4. -/
theorem test_call : (run 0x2300 (atPc start 0x204)).map (fun t => (t.slot 0, t.sp, t.pc)) = some (0x206, 1, 0x300) := by
  decide
/-- FL-6. -/
theorem test_call_full : (run 0x2300 (withDepth start 16)).map (fun t => (t.halted, t.fault, t.pc, t.sp, t.slot 15)) =
    some (true, ⟨.stackOverflow, 0x200, 0x2300, 0⟩, 0x200, 16, 0) := by decide
/-- FL-10: not reduced to 12 bits. -/
theorem test_jpV0 : (run 0xBFFF (start.setV 0 0xFF)).map (fun t => t.pc) = some 0x10FE := by decide
/-- FL-11 and FL-12. -/
theorem test_seImm_skips : (run 0x3100 start).map (fun t => t.pc) = some 0x204 := by decide
theorem test_seImm_stays : (run 0x3100 (start.setV 1 1)).map (fun t => t.pc) = some 0x202 := by decide
/-- FL-13. -/
theorem test_sneImm_skips : (run 0x4211 (start.setV 2 0x10)).map (fun t => t.pc) = some 0x204 := by decide
theorem test_sneImm_stays : (run 0x4211 (start.setV 2 0x11)).map (fun t => t.pc) = some 0x202 := by decide
/-- FL-14. -/
theorem test_seReg_skips : (run 0x5340 ((start.setV 3 0x7F).setV 4 0x7F)).map (fun t => t.pc) = some 0x204 := by decide
theorem test_seReg_stays : (run 0x5340 ((start.setV 3 0x7F).setV 4 0x7E)).map (fun t => t.pc) = some 0x202 := by decide
/-- FL-16 and FL-17. -/
theorem test_sneReg_skips : (run 0x9340 ((start.setV 3 1).setV 4 2)).map (fun t => t.pc) = some 0x204 := by decide
theorem test_sneReg_stays : (run 0x9330 (start.setV 3 0xAB)).map (fun t => t.pc) = some 0x202 := by decide

/-! ## Register load and ALU: `VX` and `VF` after -/

/-- `VX` and `VF` after one step. -/
def xAndFlag (x : Reg) (o : Option State) : Option (Byte × Byte) := o.map fun t => (t.getV x, t.getV vf)

/-- ALU-1. -/
theorem test_ldImm : (run 0x6A3E start).map (fun t => (t.getV 0xA, t.pc)) = some (0x3E, 0x202) := by decide
/-- ALU-2 and ALU-3. -/
theorem test_addImm_wraps : xAndFlag 1 (run 0x7101 ((start.setV 1 0xFF).setV vf 0x55)) = some (0x00, 0x55) := by decide
theorem test_addImm_vf : xAndFlag vf (run 0x7F05 (start.setV vf 0x10)) = some (0x15, 0x15) := by decide
/-- ALU-4. -/
theorem test_ldReg : (run 0x8120 (start.setV 2 0x9C)).map (fun t => (t.getV 1, t.getV 2)) = some (0x9C, 0x9C) := by decide
/-- ALU-5. -/
theorem test_orReg : xAndFlag 0 (run 0x8011 (((start.setV 0 0xF0).setV 1 0x0F).setV vf 1)) = some (0xFF, 1) := by decide
/-- ALU-6. -/
theorem test_andReg : xAndFlag 0 (run 0x8012 ((start.setV 0 0xF3).setV 1 0x3C)) = some (0x30, 0) := by decide
/-- ALU-7 and ALU-7b. -/
theorem test_xorReg : xAndFlag 0 (run 0x8013 ((start.setV 0 0xFF).setV 1 0x0F)) = some (0xF0, 0) := by decide
theorem test_xorReg_self : xAndFlag 1 (run 0x8113 (start.setV 1 0xAB)) = some (0, 0) := by decide
/-- ALU-8c and ALU-12b. -/
theorem test_addReg_edge : xAndFlag 1 (run 0x8124 ((start.setV 1 0xFF).setV 2 0)) = some (0xFF, 0) := by decide
theorem test_addReg_vf : xAndFlag vf (run 0x8F14 ((start.setV vf 0xFF).setV 1 2)) = some (1, 1) := by decide
/-- ALU-9 and ALU-11. -/
theorem test_subReg_equal : xAndFlag 1 (run 0x8125 ((start.setV 1 5).setV 2 5)) = some (0, 0) := by decide
theorem test_subReg_borrow : xAndFlag 1 (run 0x8125 ((start.setV 1 1).setV 2 2)) = some (0xFF, 0) := by decide
/-- ALU-17 and ALU-18. -/
theorem test_shr : xAndFlag 1 (run 0x8126 ((start.setV 1 5).setV 2 8)) = some (2, 1) := by decide
theorem test_shr_quirk : xAndFlag 1 (run 0x8126 ((quirky.setV 1 5).setV 2 8)) = some (4, 0) := by decide
/-- ALU-15 and ALU-23. -/
theorem test_subnReg : xAndFlag 1 (run 0x8127 ((start.setV 1 2).setV 2 5)) = some (3, 1) := by decide
theorem test_subnReg_vf : xAndFlag 1 (run 0x81F7 ((start.setV 1 3).setV vf 5)) = some (2, 1) := by decide
/-- ALU-20d and ALU-21. -/
theorem test_shl_quirk : xAndFlag 1 (run 0x812E ((quirky.setV 1 1).setV 2 0xC0)) = some (0x80, 1) := by decide
theorem test_shl_vf : xAndFlag vf (run 0x8FFE (start.setV vf 0x81)) = some (1, 1) := by decide

/-! ## Index register and memory -/

/-- IM-1. -/
theorem test_ldI : (run 0xA300 (start.setI 0xFFFF)).map (fun t => t.i) = some 0x300 := by decide
/-- IM-3 and IM-4. -/
theorem test_addI_wraps : (run 0xF21E ((start.setI 0xFFFF).setV 2 1)).map (fun t => (t.i, t.getV vf)) = some (0, 0) := by
  decide
theorem test_addI_beyond : (run 0xF21E ((start.setI 0xFFF).setV 2 1)).map (fun t => (t.i, t.halted)) =
    some (0x1000, false) := by decide
/-- IM-5b. -/
theorem test_ldFont : (run 0xF129 (start.setV 1 0x1A)).map (fun t => t.i) = some 0x32 := by decide
/-- IM-7 and IM-7e. -/
theorem test_ldBcd_top : (run 0xF033 ((start.setI 0xFFD).setV 0 0x7B)).map (fun t => t.bytesAt 0xFFD 3) = some [1, 2, 3] := by
  decide
theorem test_ldBcd_fault : (run 0xF033 (start.setI 0xFFFF)).map (fun t => (t.fault, t.byteAt 0)) =
    some (⟨.bcdRange, 0x200, 0xF033, 0xFFFF⟩, 0xF0) := by decide
/-- IM-8 and IM-8c. -/
theorem test_dump : (run 0xF055 ((start.setI 0x400).setV 0 0x5A)).map (fun t => (t.bytesAt 0x400 2, t.i)) =
    some ([0x5A, 0], 0x400) := by decide
theorem test_dump_fault : (run 0xFF55 ((start.setI 0xFF1).setV 0 1)).map (fun t => (t.fault, t.byteAt 0xFF1)) =
    some (⟨.dataRange, 0x200, 0xFF55, 0x1000⟩, 0) := by decide
/-- IM-9 and IM-9b. -/
theorem test_load : (run 0xF265 ((start.setI 0x300).setBytes 0x300 [1, 5, 6, 9])).map
    (fun t => (t.getV 0, t.getV 1, t.getV 2, t.getV 3, t.i)) = some (1, 5, 6, 0, 0x300) := by decide
theorem test_load_fault : (run 0xF065 (start.setI 0x1000)).map (fun t => t.fault) =
    some ⟨.dataRange, 0x200, 0xF065, 0x1000⟩ := by decide
/-- IM-10: the store is seen by the next fetch. -/
theorem test_self_modifying : (next? (runSteps 2
    (((({ start with accI := 6 }).setI 0x202).setV 0 0x12).setBytes 0x200 [0xF1, 0x55]))).map (fun t => t.pc) =
    some 0x200 := by decide

/-! ## Display -/

/-- A sprite in memory at 0x300, and `I` there. -/
def sprite (rows : List Byte) : State := (start.setI 0x300).setBytes 0x300 rows

/-- DS-1. -/
theorem test_cls : (run 0x00E0 ((start.setV vf 1).setCanvas ⟨start.disp.set 3 0x80, true⟩)).map
    (fun t => (columns t 3, t.getV vf)) = some ([], 1) := by decide
/-- DS-2: wrap at the right edge. -/
theorem test_drw_wrap : (run 0xD011 ((sprite [0xFF]).setV 0 60)).map (fun t => (columns t 0, t.getV vf)) =
    some ([0, 1, 2, 3, 60, 61, 62, 63], 0) := by decide
/-- DS-9: the old `VF` is the column, then the flag overwrites it. -/
theorem test_drw_vf : (run 0xDF11 (((sprite [0x80]).setV vf 5).setV 1 2)).map (fun t => (columns t 2, t.getV vf)) =
    some ([5], 0) := by decide

/-! ## Keypad, timers, random: on a given sample -/

/-- KT-1 and KT-2, on the sample. -/
theorem test_skp_down : ((start.setV 0 5).skipOnKey 0x0020 0 true).pc = 0x204 := by decide
theorem test_skp_up : ((start.setV 0 5).skipOnKey 0xFFDF 0 true).pc = 0x202 := by decide
/-- KT-4, on the sample, and KT-6. -/
theorem test_sknp_down : ((start.setV 0 5).skipOnKey 0x0020 0 false).pc = 0x202 := by decide
theorem test_sknp_fault : (run 0xE0A1 (start.setV 0 0x10)).map (fun t => t.fault) =
    some ⟨.keyIndex, 0x200, 0xE0A1, 0x10⟩ := by decide
/-- KT-7 and KT-8, on the sample. -/
theorem test_ldKey_waits : ((atPc (start.setV 2 0x77) 0x20A).waitKey 0 2).pc = 0x20A := by decide
theorem test_ldKey_lowest : ((atPc start 0x20A).waitKey 0x0210 2).getV 2 = 4 := by decide
/-- KT-9. -/
theorem test_ldFromDt : (run 0xF107 (start.setDt 3)).map (fun t => (t.getV 1, t.dt)) = some (3, 3) := by decide
/-- KT-10. -/
theorem test_ldToDt : (run 0xF015 (start.setV 0 3)).map (fun t => (t.dt, t.st)) = some (3, 0) := by decide
/-- KT-11 and KT-11b. -/
theorem test_ldToSt : (run 0xF318 (start.setV 3 0x1E)).map (fun t => (t.st, t.sndOn)) = some (0x1E, true) := by decide
theorem test_ldToSt_off : (run 0xF318 (start.setSt 0x1E)).map (fun t => (t.st, t.sndOn)) = some (0, false) := by decide
/-- KT-12, on the byte. -/
theorem test_rnd : (start.maskRandom 0xA7 3 0x0F).getV 3 = 7 := by decide

/-! ## Ticks, scheduler, reset, ports -/

/-- SC-1 and SC-2. -/
theorem test_timerTick : (((start.setDt 2).setSt 1).timerTick.dt, ((start.setDt 2).setSt 1).timerTick.st) = (1, 0) := by
  decide
/-- SC-4. -/
theorem test_iterate_no_work : (iterated? 2 start).map
    (fun r => (r.frames.length, r.state.accI, r.state.accT, r.state.accR, r.state.lastTime, r.state.pc)) =
    some (0, 2, 2, 2, 2, 0x200) := by decide
/-- SC-5, from the end state of SC-4. -/
theorem test_iterate_one_step : (iterated? 3 (start.beginIterate 2)).map
    (fun r => (r.state.accI, r.state.accT, r.state.accR, r.state.pc)) = some (0, 3, 3, 0x202) := by decide
/-- SC-10: the fault stops the iteration; the word is the reset state's first. -/
theorem test_iterate_fault : (iterated? 30 (start.setBytes 0x200 [0x00, 0xEE])).map
    (fun r => (r.frames.length, r.state.fault, r.state.accI, r.state.accT, r.state.accR)) =
    some (0, ⟨.stackUnderflow, 0x200, 0x00EE, 0⟩, 27, 30, 30) := by decide
/-- SC-9. -/
theorem test_iterate_backwards : iterate 9 (start.beginIterate 10) = .refused .clockWentBack := by rfl
/-- S1. -/
theorem test_reset : let t := (start.setV 1 9).hostReset start.params 7
    t.bytesAt 0 5 = [0xF0, 0x90, 0x90, 0x90, 0xF0] ∧ t.byteAt 0x4F = 0x80 ∧ t.byteAt 0x50 = 0 ∧ t.pc = 0x200 ∧
    t.getV 1 = 0 ∧ t.lastTime = 7 := by decide
/-- R73 and U17: the load port, at its lowest address, and below it. -/
theorem test_loadByte : (next? (loadByte 0x200 0x60 start)).map (fun t => t.byteAt 0x200) = some 0x60 := by decide
theorem test_loadByte_low : loadByte 0x1FF 0x60 start = .refused .loadOutsideProgram := by rfl
/-- R73: byte `k` of an image goes to 0x200 + k. -/
theorem test_loadImage : (next? (loadImage [0x60, 0xFF, 0x61] start)).map (fun t => (t.bytesAt 0x1FF 5, t.pc)) =
    some ([0, 0x60, 0xFF, 0x61, 0], 0x200) := by decide
/-- R343, on the image of program P5: the load follows the reset, which erases what was there. -/
theorem test_boot : (next? (boot start.params 7 [0x22, 0x00] ((start.beginIterate 3).setByte 0x201 9))).map
    (fun t => (t.bytesAt 0x200 2, t.lastTime, t.loadOpen)) = some ([0x22, 0x00], 7, true) := by decide
/-- R300: the numbers of the six codes at the port `fault_code`, each on a faulting step (FL-6, FL-8, IM-7b, EN-9, IM-9b,
KT-6), and 0 after reset. -/
theorem test_fault_codes :
    [some start, run 0x2300 (withDepth start 16), run 0x00EE start, run 0xF033 (start.setI 0xFFE),
      next? (step (atPc start 0xFFF).makeStepDue), run 0xF065 (start.setI 0x1000), run 0xE09E (start.setV 0 0x10)].map
        (Option.map State.faultCode) = [some 0, some 1, some 2, some 3, some 4, some 5, some 6] := by decide
/-- A write of the value an unlisted address reads as removes the entry. -/
theorem test_memory_canonical : ((start.setByte 0x300 7).setByte 0x300 0).mem = [] ∧ (start.setByte 0 0xF0).mem = [] := by
  decide

/-! ## Witnesses: states and operands that meet the hypotheses of the obligations, at the boundary of each clause -/

/-- `start` with one instruction period due and the bytes at `pc`. -/
def due (bytes : List Byte) : State := ({ start with accI := 3 } : State).setBytes 0x200 bytes

theorem witness_DecodeInvertsEncode : (Instr.jp 0xFFF).wellFormed = true ∧ (Instr.drw 15 15 15).wellFormed = true := by
  decide

theorem witness_EncodeInvertsDecode : decode 0xFF65 = .ok (.load 15) := by rfl

theorem witness_DecodeFollowsOpcodeMap : decode 0xE09E = .ok (.skp 0) ∧ decode 0xE09F = .error .familyE := ⟨rfl, rfl⟩

theorem witness_UnrecognisedWordsByFamily :
    decode 0x0FFF = .error .family0 ∧ decode 0x5FFF = .error .family5 ∧ decode 0x800F = .error .family8 ∧
    decode 0x9001 = .error .family9 ∧ decode 0xEFFF = .error .familyE ∧ decode 0xFFFF = .error .familyF :=
  ⟨rfl, rfl, rfl, rfl, rfl, rfl⟩

/-- The lowest and the highest address above the font. -/
theorem witness_ResetLeavesStatedValues : 80 ≤ 0x050 ∧ 80 ≤ 0xFFF := by decide

theorem witness_StepRunsDecodedInstruction :
    (due [0x6A, 0x3E]).halted = false ∧ (due [0x6A, 0x3E]).params.wellFormed ∧
    (due [0x6A, 0x3E]).periodI ≤ (due [0x6A, 0x3E]).accI ∧ (due [0x6A, 0x3E]).pc.toNat + 1 ≤ 0xFFF ∧
    decodeBytes ((due [0x6A, 0x3E]).byteAt (due [0x6A, 0x3E]).pc.toNat)
      ((due [0x6A, 0x3E]).byteAt ((due [0x6A, 0x3E]).pc.toNat + 1)) = .ok (.ldImm 0xA 0x3E) :=
  ⟨by decide, by decide, by decide, by decide, by rfl⟩

/-- At the last address that can be fetched. -/
theorem witness_StepRunsDecodedInstruction_top :
    (atPc (due []) 0xFFE).halted = false ∧ (atPc (due []) 0xFFE).params.wellFormed ∧
    (atPc (due []) 0xFFE).periodI ≤ (atPc (due []) 0xFFE).accI ∧ (atPc (due []) 0xFFE).pc.toNat + 1 ≤ 0xFFF ∧
    decodeBytes (((atPc (due []) 0xFFE).setByte 0xFFE 0x60).byteAt 0xFFE)
      (((atPc (due []) 0xFFE).setByte 0xFFE 0x60).byteAt 0xFFF) = .ok (.ldImm 0 0) :=
  ⟨by decide, by decide, by decide, by decide, by rfl⟩

theorem witness_StepPassesUnrecognisedWord :
    (due []).halted = false ∧ (due []).params.wellFormed ∧ (due []).periodI ≤ (due []).accI ∧
    (due []).pc.toNat + 1 ≤ 0xFFF ∧
    decodeBytes ((due []).byteAt (due []).pc.toNat) ((due []).byteAt ((due []).pc.toNat + 1)) = .error .family0 :=
  ⟨by decide, by decide, by decide, by decide, by rfl⟩

/-- Just at the end of memory, and beyond it. -/
theorem witness_FetchOutsideMemoryFaults :
    (atPc (due []) 0xFFF).halted = false ∧ (atPc (due []) 0xFFF).params.wellFormed ∧
    (atPc (due []) 0xFFF).periodI ≤ (atPc (due []) 0xFFF).accI ∧ 0xFFF ≤ (atPc (due []) 0xFFF).pc.toNat ∧
    0xFFF < (atPc (due []) 0x1000).pc.toNat := ⟨by decide, by decide, by decide, by decide, by decide⟩

theorem witness_HaltedMachineStays : (start.raise .stackUnderflow 0x00EE 0).halted = true := by decide

/-- `start` with given timer and render accumulators: no instruction is due. -/
def ticking (t r : Nat) : State := { start with accT := t, accR := r }

/-- First clause, at the least accumulator that ticks. -/
theorem witness_StepDrainsThenIterates_timer :
    (ticking 25 25).halted = false ∧ (ticking 25 25).params.wellFormed ∧ (ticking 25 25).accI < (ticking 25 25).periodI ∧
    (ticking 25 25).periodT ≤ (ticking 25 25).accT := by decide

/-- Second clause. -/
theorem witness_StepDrainsThenIterates_render :
    (ticking 24 25).halted = false ∧ (ticking 24 25).params.wellFormed ∧ (ticking 24 25).accI < (ticking 24 25).periodI ∧
    (ticking 24 25).accT < (ticking 24 25).periodT ∧ (ticking 24 25).periodR ≤ (ticking 24 25).accR := by decide

/-- Third clause. -/
theorem witness_StepDrainsThenIterates_iterate :
    (ticking 24 24).halted = false ∧ (ticking 24 24).params.wellFormed ∧ (ticking 24 24).accI < (ticking 24 24).periodI ∧
    (ticking 24 24).accT < (ticking 24 24).periodT ∧ (ticking 24 24).accR < (ticking 24 24).periodR := by decide

theorem witness_FaultEntryIsPrecise : ∃ t, exec .ret start = .next t ∧ start.halted = false ∧ t.halted = true :=
  ⟨_, rfl, rfl, rfl⟩

theorem witness_OtherInstructionsNeverFault : canFault .cls = false ∧ canFault (.ldKey 0) = false := by decide

theorem witness_ReturnPopsAddress : ∀ n ∈ ([1, 16] : List (Fin 17)), 0 < (withDepth start n).sp.val ∧
    ∃ k : Fin 16, k.val + 1 = (withDepth start n).sp.val := by decide

theorem witness_ReturnOnEmptyStackFaults : start.sp.val = 0 := by decide

theorem witness_JumpGoesToAddress : isAddress12 0xFFF ∧ (0x200 : Word) = start.pc := by decide

theorem witness_CallPushesReturnAddress : ∀ n ∈ ([0, 15] : List (Fin 17)), (withDepth start n).sp.val < 16 ∧
    ∃ k : Fin 16, k.val = (withDepth start n).sp.val := by decide

theorem witness_CallOnFullStackFaults : (withDepth start 16).sp.val = 16 := by decide

/-- Sixteen calls on an empty stack, and one on the last free slot. -/
theorem witness_CallsThenReturnsComeBack :
    (List.replicate 16 (0x300 : Word) ≠ [] ∧ start.sp.val + (List.replicate 16 (0x300 : Word)).length ≤ 16) ∧
    ([(0x300 : Word)] ≠ [] ∧ (withDepth start 15).sp.val + [(0x300 : Word)].length ≤ 16) := by decide

/-- A destination that is not `VF`, for the result clauses of the flag-setting instructions. -/
theorem witness_AddSetsCarry : (1 : Reg) ≠ vf := by decide
theorem witness_SubtractSetsNoBorrow : (14 : Reg) ≠ vf := by decide
theorem witness_ReverseSubtractSetsNoBorrow : (0 : Reg) ≠ vf := by decide
theorem witness_ShiftRightSetsLowBit : (1 : Reg) ≠ vf := by decide
theorem witness_ShiftLeftSetsHighBit : (1 : Reg) ≠ vf := by decide

theorem witness_LoadIndex : isAddress12 0xFFF := by decide

theorem witness_DecimalDigitsStored : (start.setI 0xFFD).indirectBase + 2 ≤ 0xFFF := by decide

theorem witness_RegistersDumped : (start.setI 0xFF0).indirectBase + (15 : Reg).val ≤ 0xFFF ∧ (15 : Reg) ≤ 15 := by decide

theorem witness_RegistersLoaded : (start.setI 0xFFF).indirectBase + (0 : Reg).val ≤ 0xFFF ∧ (0 : Reg) ≤ 0 := by decide

theorem witness_DumpThenLoadRestores : (start.setI 0x300).indirectBase + (3 : Reg).val ≤ 0xFFF ∧
    ∃ t u : State, exec (.dump 3) (start.setI 0x300) = .next t ∧ u.i = t.i ∧ ∀ a, u.byteAt a = t.byteAt a :=
  ⟨by decide, _, _, rfl, rfl, fun _ => rfl⟩

/-- The lowest base outside memory for each of the three lengths, and a base that is itself outside. -/
theorem witness_RunOutsideMemoryFaults :
    0xFFF < (start.setI 0xFFE).indirectBase + 2 ∧ 0xFFF < (start.setI 0x1000).indirectBase + 2 ∧
    0xFFF < (start.setI 0xFF1).indirectBase + (15 : Reg).val ∧ 0xFFF < (start.setI 0x1000).indirectBase + (0 : Reg).val ∧
    (0 < (3 : Fin 16).val ∧ 0xFFF < (start.setI 0xFFE).indirectBase + (3 : Fin 16).val - 1) ∧
    (0 < (1 : Fin 16).val ∧ 0xFFF < (start.setI 0x1000).indirectBase + (1 : Fin 16).val - 1) := by decide

/-- No rows at any base; the last row at 0xFFF; a covered pixel that is set, an uncovered one, and a sprite that covers nothing
that is set. -/
theorem witness_DrawXorsSprite :
    ((0 : Fin 16).val = 0) ∧ ((start.setI 0xFFE).indirectBase + (2 : Fin 16).val - 1 ≤ 0xFFF) ∧
    Covers (sprite [0x80]) 0 1 1 0 0 ∧
    (Covers ((sprite [0x80]).setCanvas ⟨start.disp.set 0 1, false⟩) 0 1 1 0 0 ∧
      ((sprite [0x80]).setCanvas ⟨start.disp.set 0 1, false⟩).pixel 0 0 = true) ∧
    ¬ Covers (sprite [0x80]) 0 1 0 0 0 ∧
    (∀ r c, Covers (sprite [0x80]) 0 1 1 r c → (sprite [0x80]).pixel r c = false) :=
  ⟨by decide, by decide, ⟨0, 0, by decide, by decide, by decide, by decide, by decide⟩,
    ⟨⟨0, 0, by decide, by decide, by decide, by decide, by decide⟩, by decide⟩,
    by rintro ⟨k, j, hk, -⟩; exact absurd hk (Nat.not_lt_zero k),
    fun r c _ => by
      have h : (sprite [0x80]).disp = Vector.replicate 32 0 := by decide
      rw [State.pixel, h]; simp [Vector.get_eq_getElem]⟩

theorem witness_DrawTwiceRestores : (0 : Reg) ≠ vf ∧ (1 : Reg) ≠ vf ∧ (sprite [0x80]).indirectBase + (1 : Fin 16).val - 1 ≤ 0xFFF := by
  decide

theorem witness_KeySkips : (start.getV 0).toNat ≤ 0xF ∧ ((start.setV 0 0xF).getV 0).toNat ≤ 0xF := by decide

theorem witness_KeyIndexAboveFFaults : 0xF < ((start.setV 0 0x10).getV 0).toNat ∧ 0xF < ((start.setV 0 0xFF).getV 0).toNat := by
  decide

/-- An iteration with no time elapsed, and one that does not fault. -/
theorem witness_IterationDrainsAccumulators :
    start.halted = false ∧ start.params.wellFormed ∧ start.lastTime ≤ 0 ∧ start.lastTime ≤ 3 ∧
    ((iterated? 3 start).map fun r => r.state.halted) = some false := by decide

theorem witness_StepsRefineIteration : start.halted = false ∧ start.params.wellFormed ∧ start.due = .beginIterate := by
  decide

theorem witness_ClockNeverGoesBack :
    (∃ t, step (due []) = .next t) ∧ (start.beginIterate 10).halted = false ∧ 9 < (start.beginIterate 10).lastTime :=
  ⟨⟨_, rfl⟩, by decide, by decide⟩

theorem witness_StepKeepsLockstep :
    (Lockstep (ticking 25 25) ∧ ∃ t, step (ticking 25 25) = .next t) ∧
    (Lockstep start ∧ start.due = .beginIterate) :=
  ⟨⟨⟨by decide, by decide, by decide⟩, _, rfl⟩, ⟨by decide, by decide, by decide⟩, by decide⟩

theorem witness_StepKeepsWellFormed : WellFormed (due [0x6A, 0x3E]) ∧ ∃ t, step (due [0x6A, 0x3E]) = .next t :=
  ⟨⟨by decide, by decide, by decide⟩, _, rfl⟩

/-- At the highest `pc` the invariant admits. -/
theorem witness_StepKeepsPcInReach : PcInReach (atPc (due []) 0x10FE) ∧ ∃ t, step (atPc (due []) 0x10FE) = .next t :=
  ⟨⟨by decide, by decide⟩, _, rfl⟩

theorem witness_HostOperationsKeepInvariants : start.params.wellFormed ∧
    ∃ t, loadByte 0xFFF 0x60 start = .next t ∧ WellFormed start ∧ PcInReach start ∧ Lockstep start :=
  ⟨by decide, _, rfl, ⟨by decide, by decide, by decide⟩, ⟨by decide, by decide⟩, ⟨by decide, by decide, by decide⟩⟩

theorem witness_InstructionsWriteOnlyTheirState :
    writesIndex .cls = false ∧ writesMemory (.load 0) = false ∧ writesDisplay (.ldI 0) = false ∧
    writesStack (.jp 0) = false ∧ (∀ x, Instr.cls ≠ .ldToDt x) ∧ (∀ x, Instr.cls ≠ .ldToSt x) ∧
    (writesRegister (.addImm 1 1) vf = false ∧ writesRegister (.load 14) vf = false ∧
      writesRegister (.addReg 1 2) 14 = false ∧ writesRegister (.drw 1 2 3) 1 = false) ∧
    canFault (.ldKey 0) = false ∧ takesInput (.ldFromDt 0) = false := by decide

/-- Which registers are destinations: the run of FX65, `VX`, and the flag. -/
theorem test_writesRegister :
    ((List.finRange 16).filter (writesRegister (.load 2))).map Fin.val = [0, 1, 2] ∧
    ((List.finRange 16).filter (writesRegister (.subReg 3 4))).map Fin.val = [3, 15] ∧
    ((List.finRange 16).filter (writesRegister (.drw 1 2 5))).map Fin.val = [15] ∧
    ((List.finRange 16).filter (writesRegister (.dump 5))).map Fin.val = [] := by decide

/-- The lowest and the highest address of the port, an address below it, a closed port, and an image one byte too long. -/
theorem witness_LoadPortStoresOrRefuses :
    (start.loadOpen = true ∧ 0x200 ≤ (0x200 : BitVec 12).toNat ∧ 0x200 ≤ (0xFFF : BitVec 12).toNat) ∧
    (0x1FF : BitVec 12).toNat < 0x200 ∧ (start.beginIterate 0).loadOpen = false ∧
    3584 < (List.replicate 3585 (0 : Byte)).length :=
  ⟨by decide, by decide, by decide, by rw [List.length_replicate]; omega⟩

/-- The longest image, and the shortest that has a byte, through an open port. -/
theorem witness_ImageLoadsAtProgramBase :
    start.loadOpen = true ∧ (List.replicate 3584 (0x60 : Byte)).length ≤ 3584 ∧
    3583 < (List.replicate 3584 (0x60 : Byte)).length ∧ [(0x60 : Byte)].length ≤ 3584 ∧ 0 < [(0x60 : Byte)].length :=
  ⟨by decide, by rw [List.length_replicate], by rw [List.length_replicate]; omega, by decide, by decide⟩

end Sys2Proof.Tests
end

section
/-! PROOF. Invariants of the state and its ports (10_state.md): reset meets the three invariants, every step keeps `pc` and
the call stack in reach, and the output ports show the fields they stand for. -/

namespace Sys2Proof

/-! ## Decoded instructions are well-formed (R93) -/

/-- An `NNN` field has 12 bits. -/
theorem isAddress12_fieldNNN (op : Word) : isAddress12 (fieldNNN op) := by
  simp only [isAddress12, fieldNNN, BitVec.toNat_setWidth]
  have := (op.extractLsb' 0 12).isLt
  omega

theorem decode0_wellFormed {op : Word} {i : Instr} (h : decode0 op = .ok i) : i.wellFormed = true := by
  unfold decode0 at h
  split_ifs at h <;> cases h <;> rfl

theorem decode5_wellFormed {x y : Reg} {n : BitVec 4} {i : Instr} (h : decode5 x y n = .ok i) :
    i.wellFormed = true := by
  unfold decode5 at h
  split_ifs at h; cases h; rfl

theorem decode8_wellFormed {x y : Reg} {n : BitVec 4} {i : Instr} (h : decode8 x y n = .ok i) :
    i.wellFormed = true := by
  unfold decode8 at h
  split at h <;> cases h <;> rfl

theorem decode9_wellFormed {x y : Reg} {n : BitVec 4} {i : Instr} (h : decode9 x y n = .ok i) :
    i.wellFormed = true := by
  unfold decode9 at h
  split_ifs at h; cases h; rfl

theorem decodeE_wellFormed {x : Reg} {nn : Byte} {i : Instr} (h : decodeE x nn = .ok i) : i.wellFormed = true := by
  unfold decodeE at h
  split at h <;> cases h <;> rfl

theorem decodeF_wellFormed {x : Reg} {nn : Byte} {i : Instr} (h : decodeF x nn = .ok i) : i.wellFormed = true := by
  unfold decodeF at h
  split at h <;> cases h <;> rfl

/-- The decoder answers no instruction that the encoding cannot hold: the four with an address operand take it from the
`NNN` field, and no other has an operand to check. -/
theorem decode_wellFormed {op : Word} {i : Instr} (h : decode op = .ok i) : i.wellFormed = true := by
  have address : decide (isAddress12 (fieldNNN op)) = true := decide_eq_true (isAddress12_fieldNNN op)
  unfold decode at h
  split at h
  case h_1 => exact decode0_wellFormed h
  case h_2 | h_3 | h_11 | h_12 => cases h; exact address
  case h_6 => exact decode5_wellFormed h
  case h_9 => exact decode8_wellFormed h
  case h_10 => exact decode9_wellFormed h
  case h_15 => exact decodeE_wellFormed h
  case h_16 => exact decodeF_wellFormed h
  all_goals cases h; rfl

end Sys2Proof

namespace Sys2Proof.Machine

/-! ## What an instruction step can do (R120, R121, R250) -/

/-- Everything an instruction step with a next state can be: a fetch fault, or, with both bytes of the word inside
memory, the decoded instruction or the advance over an unrecognised word. -/
theorem instructionStep_cases {s t : State} (h : instructionStep s = .next t) :
    (∃ a, firstOutside s.pc.toNat 2 = some a ∧ t = s.raise .fetchRange 0 a) ∨
    (s.pc.toNat + 2 ≤ 0x1000 ∧
      ((∃ i, decodeBytes (s.byteAt s.pc.toNat) (s.byteAt (s.pc.toNat + 1)) = .ok i ∧ exec i s = .next t) ∨
       (∃ f, decodeBytes (s.byteAt s.pc.toNat) (s.byteAt (s.pc.toNat + 1)) = .error f ∧ t = s.advance))) := by
  unfold instructionStep at h
  split at h
  · next a ha => cases h; exact .inl ⟨a, ha, rfl⟩
  · next ha =>
    have inside : s.pc.toNat + 2 ≤ 0x1000 := (firstOutside_eq_none.1 ha).resolve_left (by decide)
    split at h
    · next i hi => exact .inr ⟨inside, .inl ⟨i, hi, h⟩⟩
    · next f hf => cases h; exact .inr ⟨inside, .inr ⟨f, hf, rfl⟩⟩

end Sys2Proof.Machine

namespace Sys2Proof.Safety

open Sys2Proof.Machine

/-! ## Where an instruction leaves `pc` and the call stack (R23, R25) -/

/-- From `s` to `t` the call stack's slots are kept and `pc` stays, advances, or advances and skips. -/
def MovesOn (s t : State) : Prop := (t.pc = s.pc ∨ t.pc = s.pc + 2 ∨ t.pc = s.pc + 4) ∧ t.stack = s.stack

theorem MovesOn.raise (s : State) (code : FaultCode) (op : Word) (addr : Nat) : MovesOn s (s.raise code op addr) :=
  ⟨.inl rfl, rfl⟩

theorem MovesOn.of_pc_add_two {s t : State} (hpc : t.pc = s.pc + 2) (hstack : t.stack = s.stack) : MovesOn s t :=
  ⟨.inr (.inl hpc), hstack⟩

theorem MovesOn.skipIf {s u : State} (hpc : u.pc = s.pc + 2) (hstack : u.stack = s.stack) (c : Bool) :
    MovesOn s (u.skipIf c) := by
  refine ⟨.inr ?_, by simp [hstack]⟩
  cases c
  · exact .inl hpc
  · exact .inr (by simp [hpc, BitVec.add_assoc])

/-- FX0A: with no key down the advance is taken back (R232). -/
theorem MovesOn.waitKey (s : State) (keys : BitVec 16) (x : Reg) : MovesOn s (s.drawn.waitKey keys x) := by
  unfold State.waitKey
  split_ifs
  · exact ⟨.inl (by simp), rfl⟩
  · exact .of_pc_add_two rfl rfl

/-- The instructions that overwrite `pc`: 1NNN, 2NNN, BNNN and 00EE (R23). -/
def overwritesPc : Instr → Bool
  | .jp _ | .call _ | .jpV0 _ | .ret => true
  | _ => false

/-- Every instruction that does not overwrite `pc` moves on. -/
theorem exec_movesOn {i : Instr} {s t : State} (hi : overwritesPc i = false) (h : exec i s = .next t) : MovesOn s t := by
  cases i with
  | jp | call | jpV0 | ret => cases hi
  | seImm | sneImm | seReg | sneReg => cases h; exact .skipIf (u := s.advance) rfl rfl _
  | skp x | sknp x =>
    simp only [exec, execSkp, execSknp] at h
    split_ifs at h <;> cases h
    · exact .raise ..
    · exact .skipIf (u := s.drawn.advance) rfl rfl _
  | ldKey x => cases h; exact .waitKey ..
  | drw | ldBcd | dump | load =>
    simp only [exec, execDrw, execLdBcd, execDump, execLoad] at h
    split at h <;> cases h
    · exact .raise ..
    · exact .of_pc_add_two (by simp) (by simp)
  | _ => cases h; exact .of_pc_add_two rfl rfl

/-! ## `pc` and the call stack stay in reach (R23, R140) -/

/-- The bound on the slots depends on the stack alone. -/
theorem PcInReach.of_stack {s t : State} (hs : PcInReach s) (hpc : t.pc.toNat ≤ 0x10FE) (hstack : t.stack = s.stack) :
    PcInReach t :=
  ⟨hpc, fun k => by simpa [State.slot, hstack] using hs.2 k⟩

/-- Moving on from an address that could be fetched leads to 0x1002 at most. -/
theorem PcInReach.of_movesOn {s t : State} (hs : PcInReach s) (fetched : s.pc.toNat + 2 ≤ 0x1000) (h : MovesOn s t) :
    PcInReach t := by
  obtain ⟨hpc, hstack⟩ := h
  refine hs.of_stack ?_ hstack
  obtain hpc | hpc | hpc := hpc <;> rw [hpc] <;> bv_omega

/-- 2NNN pushes the address after a word that could be fetched (R142). -/
theorem PcInReach.pushed {s : State} (hs : PcInReach s) {a : Word} (ha : a.toNat ≤ 0x1000) (h : s.sp.val < 16) :
    PcInReach (s.pushed a h) := by
  obtain ⟨hpc, hslot⟩ := hs
  refine ⟨hpc, fun k => ?_⟩
  rw [State.slot_pushed]
  split_ifs
  · exact ha
  · exact hslot k

theorem PcInReach.of_execCall {s t : State} {nnn : Word} (hs : PcInReach s) (fetched : s.pc.toNat + 2 ≤ 0x1000)
    (hn : isAddress12 nnn) (h : execCall nnn s = .next t) : PcInReach t := by
  unfold execCall at h
  by_cases hsp : s.advance.sp.val < 16
  · rw [State.push?_of_lt _ _ hsp] at h
    cases h
    have advanced : PcInReach s.advance := hs.of_movesOn fetched (.of_pc_add_two rfl rfl)
    have pushed := advanced.pushed (a := s.advance.pc) (by rw [State.advance_pc]; bv_omega) hsp
    exact pushed.of_stack (by rw [State.jump_pc]; omega) rfl
  · rw [State.push?_of_full _ _ (by have := s.advance.sp.isLt; omega)] at h
    cases h
    exact hs.of_movesOn fetched (.raise ..)

theorem PcInReach.of_execRet {s t : State} (hs : PcInReach s) (h : execRet s = .next t) : PcInReach t := by
  unfold execRet at h
  by_cases hsp : s.advance.sp.val = 0
  · rw [State.pop?_of_empty _ hsp] at h
    cases h
    exact hs
  · rw [State.pop?_of_pos _ (by omega)] at h
    cases h
    have target : (s.slot s.topIndex).toNat ≤ 0x1000 := hs.2 _
    exact hs.of_stack (target.trans (by decide)) rfl

/-- Every well-formed instruction at an address that could be fetched keeps `pc` and the slots in reach; the highest `pc`
is that of BNNN, 0xFFF + 0xFF. -/
theorem PcInReach.of_exec {i : Instr} {s t : State} (hs : PcInReach s) (fetched : s.pc.toNat + 2 ≤ 0x1000)
    (hi : i.wellFormed = true) (h : exec i s = .next t) : PcInReach t := by
  by_cases other : overwritesPc i = false
  · exact hs.of_movesOn fetched (exec_movesOn other h)
  · cases i with
    | jp nnn =>
      have hn : isAddress12 nnn := of_decide_eq_true hi
      cases h
      exact hs.of_stack (by rw [State.jump_pc]; omega) rfl
    | jpV0 nnn =>
      have hn : isAddress12 nnn := of_decide_eq_true hi
      cases h
      refine hs.of_stack ?_ rfl
      have := (s.getV 0).isLt
      rw [State.jump_pc, BitVec.toNat_add, BitVec.toNat_setWidth]
      omega
    | call nnn => exact hs.of_execCall fetched (of_decide_eq_true hi) h
    | ret => exact hs.of_execRet h
    | _ => exact absurd rfl other

theorem PcInReach.of_instructionStep {s t : State} (hs : PcInReach s) (h : instructionStep s = .next t) : PcInReach t := by
  obtain ⟨a, -, rfl⟩ | ⟨fetched, ⟨i, hi, h⟩ | ⟨f, -, rfl⟩⟩ := instructionStep_cases h
  · exact hs
  · exact hs.of_exec fetched (decode_wellFormed hi) h
  · exact hs.of_movesOn fetched (.of_pc_add_two rfl rfl)

/-- Settles O54: of the scheduler's transitions only `Step` touches `pc` or the stack, and it fetches below 0x1000 or
faults. -/
theorem stepKeepsPcInReach : Obligations.StepKeepsPcInReach := by
  intro s t hs h
  obtain ⟨-, rfl⟩ | ⟨-, -, ⟨-, h⟩ | ⟨-, -, rfl⟩ | ⟨-, -, -, rfl⟩ | ⟨-, -, -, rfl⟩⟩ := schedule_cases h
  · exact hs
  · exact PcInReach.of_instructionStep (s := { s with accI := s.accI - s.periodI }) hs h
  all_goals exact hs

end Sys2Proof.Safety

namespace Sys2Proof.Machine

/-! ## The output ports (R34, R300) -/

/-- In the rows as one number, row `r` holds the bits from `64 r` on. -/
theorem testBit_rowsToNat (rows : List (BitVec 64)) (r c : Nat) (hr : r < rows.length) (hc : c < 64) :
    (rowsToNat rows).testBit (64 * r + c) = rows[r].getLsbD c := by
  induction rows generalizing r with
  | nil => cases hr
  | cons row rows ih =>
    rw [rowsToNat, Nat.add_comm, Nat.testBit_two_pow_mul_add _ row.isLt]
    cases r with
    | zero => simp [hc, BitVec.getLsbD]
    | succ r =>
      have shift : 64 * (r + 1) + c - 64 = 64 * r + c := by omega
      rw [if_neg (by omega), shift]
      exact ih r (Nat.lt_of_succ_lt_succ hr)

theorem State.getLsbD_fb (s : State) (r : Fin 32) (c : Fin 64) : s.fb.getLsbD (64 * r.val + c.val) = s.pixel r c := by
  have inside : 64 * r.val + c.val < 2048 := by omega
  rw [State.fb, BitVec.getLsbD_ofNat, testBit_rowsToNat _ _ _ (by simp) c.isLt]
  simp [inside, State.pixel, Vector.get_eq_getElem]

theorem State.faultCode_eq_number (s : State) (c : FaultCode) : s.faultCode = c.number ↔ s.fault.code = c :=
  ⟨FaultCode.number_inj, congrArg FaultCode.number⟩

/-- Settles O59: the frame by `testBit_rowsToNat`, the fault numbers because no two codes share one. -/
theorem portsShowDisplaySoundAndFault : Obligations.PortsShowDisplaySoundAndFault := by
  intro s
  exact ⟨s.getLsbD_fb, decide_eq_true_iff, s.faultCode_eq_number .none, s.faultCode_eq_number .stackOverflow,
    s.faultCode_eq_number .stackUnderflow, s.faultCode_eq_number .bcdRange, s.faultCode_eq_number .fetchRange,
    s.faultCode_eq_number .dataRange, s.faultCode_eq_number .keyIndex⟩

end Sys2Proof.Machine

namespace Sys2Proof.Safety

open Sys2Proof.Machine

/-! ## Reset (R35, R340) -/

theorem wellFormed_resetWith {p : Params} (hp : p.wellFormed) (now draws : Nat) :
    WellFormed (State.resetWith p now draws) :=
  ⟨State.resetWith_wf p now draws, hp, by simp [State.resetWith, FaultRecord.clear]⟩

theorem pcInReach_resetWith (p : Params) (now draws : Nat) : PcInReach (State.resetWith p now draws) :=
  ⟨by simp [State.resetWith], fun k => by simp [State.slot, State.resetWith, Vector.get_eq_getElem]⟩

theorem lockstep_resetWith (p : Params) (now draws : Nat) : Lockstep (State.resetWith p now draws) :=
  ⟨Nat.le_refl _, by simp [State.resetWith], fun _ => rfl⟩

/-- `INSTR_HZ` 500 and `U` 1500 meet R7. -/
theorem defaultParams_wellFormed : defaultParams.wellFormed := by decide

/-- Settles O55: the three invariants hold after a reset with any parameters that meet R7, and the defaults do. -/
theorem resetMeetsInvariants : Obligations.ResetMeetsInvariants :=
  ⟨wellFormed_resetWith defaultParams_wellFormed 0 0, pcInReach_resetWith defaultParams 0 0,
    lockstep_resetWith defaultParams 0 0⟩

end Sys2Proof.Safety
end

section
/-! PROOF. Memory (20_memory.md): an instruction that does not fault leaves memory as it was or stores one run of bytes, so
every step keeps the canonical form; and an image of at most 3584 bytes comes to lie at 0x200. -/

namespace Sys2Proof.Safety

open Sys2Proof.Machine

/-! ## How an instruction ends (R301, R303; 20_memory.md R60) -/

/-- From `s` to `t` an instruction has run without a fault: memory is as it was, or one run of bytes has been stored at
`I`; the halt, the fault record and the parameters are kept. -/
structure Completes (s t : State) : Prop where
  halted : t.halted = s.halted
  fault : t.fault = s.fault
  params : t.params = s.params
  mem : t.mem = s.mem ∨ ∃ bs, t.mem = (s.advance.setBytes s.indirectBase bs).mem

/-- From `s` to `t` the instruction `i` has faulted (R303). -/
def Faults (i : Instr) (s t : State) : Prop :=
  canFault i = true ∧ ∃ code addr, code ≠ .none ∧ t = s.raise code (encode i) addr

theorem Completes.skipIf {s u : State} (h : Completes s u) (c : Bool) : Completes s (u.skipIf c) :=
  ⟨by simp [h.halted], by simp [h.fault], by simp [h.params], by simpa using h.mem⟩

theorem Completes.advance (s : State) : Completes s s.advance := ⟨rfl, rfl, rfl, .inl rfl⟩

theorem Completes.setBytes (s : State) (bs : List Byte) : Completes s (s.advance.setBytes s.indirectBase bs) :=
  ⟨by simp, by simp, by simp, .inr ⟨bs, rfl⟩⟩

theorem Completes.waitKey (s : State) (keys : BitVec 16) (x : Reg) : Completes s (s.drawn.waitKey keys x) := by
  unfold State.waitKey
  split_ifs <;> exact ⟨rfl, rfl, rfl, .inl rfl⟩

theorem execRet_faults_or_completes {s t : State} (h : execRet s = .next t) : Faults .ret s t ∨ Completes s t := by
  unfold execRet at h
  by_cases hsp : s.advance.sp.val = 0
  · rw [State.pop?_of_empty _ hsp] at h
    cases h
    exact .inl ⟨rfl, .stackUnderflow, 0, by decide, rfl⟩
  · rw [State.pop?_of_pos _ (by omega)] at h
    cases h
    exact .inr ⟨rfl, rfl, rfl, .inl rfl⟩

theorem execCall_faults_or_completes {s t : State} {nnn : Word} (h : execCall nnn s = .next t) :
    Faults (.call nnn) s t ∨ Completes s t := by
  unfold execCall at h
  by_cases hsp : s.advance.sp.val < 16
  · rw [State.push?_of_lt _ _ hsp] at h
    cases h
    exact .inr ⟨rfl, rfl, rfl, .inl rfl⟩
  · rw [State.push?_of_full _ _ (by have := s.advance.sp.isLt; omega)] at h
    cases h
    exact .inl ⟨rfl, .stackOverflow, 0, by decide, rfl⟩

/-- Every instruction faults or completes; outside the eight of `canFault` it completes. -/
theorem exec_faults_or_completes {i : Instr} {s t : State} (h : exec i s = .next t) : Faults i s t ∨ Completes s t := by
  cases i with
  | ret => exact execRet_faults_or_completes h
  | call => exact execCall_faults_or_completes h
  | seImm | sneImm | seReg | sneReg => cases h; exact .inr ((Completes.advance s).skipIf _)
  | skp x | sknp x =>
    simp only [exec, execSkp, execSknp] at h
    split_ifs at h <;> cases h
    · exact .inl ⟨rfl, .keyIndex, _, by decide, rfl⟩
    · exact .inr (Completes.skipIf (s := s) (u := s.drawn.advance) ⟨rfl, rfl, rfl, .inl rfl⟩ _)
  | ldKey x => cases h; exact .inr (.waitKey ..)
  | drw | load =>
    simp only [exec, execDrw, execLoad] at h
    split at h <;> cases h
    · exact .inl ⟨rfl, .dataRange, _, by decide, rfl⟩
    · exact .inr ⟨by simp, by simp, by simp, .inl (by simp)⟩
  | ldBcd | dump =>
    simp only [exec, execLdBcd, execDump] at h
    split at h <;> cases h
    · exact .inl ⟨rfl, _, _, by decide, rfl⟩
    · exact .inr (.setBytes ..)
  | _ => cases h; exact .inr ⟨rfl, rfl, rfl, .inl rfl⟩

/-! ## Every step keeps the state well-formed (20_memory.md R60; R7, R31, R343) -/

/-- Fault entry halts the machine and records a code, and touches neither memory nor the parameters. -/
theorem WellFormed.raise {s : State} (hs : WellFormed s) {code : FaultCode} (hc : code ≠ .none) (op : Word) (addr : Nat) :
    WellFormed (s.raise code op addr) := by
  obtain ⟨hmem, hparams, -⟩ := hs
  exact ⟨hmem, hparams, by simp [hc]⟩

theorem WellFormed.of_completes {s t : State} (hs : WellFormed s) (h : Completes s t) : WellFormed t := by
  obtain ⟨hmem, hparams, hhalt⟩ := hs
  have canonical : Memory.wf s.params.font t.mem := by
    obtain hm | ⟨bs, hm⟩ := h.mem <;> rw [hm]
    · exact hmem
    · exact State.setBytes_wf (s := s.advance) hmem _ bs
  unfold WellFormed
  rw [h.params, h.halted, h.fault]
  exact ⟨canonical, hparams, hhalt⟩

theorem WellFormed.of_exec {i : Instr} {s t : State} (hs : WellFormed s) (h : exec i s = .next t) :
    WellFormed t ∧ t.params = s.params := by
  obtain ⟨-, code, addr, hc, rfl⟩ | done := exec_faults_or_completes h
  · exact ⟨hs.raise hc .., rfl⟩
  · exact ⟨hs.of_completes done, done.params⟩

theorem WellFormed.of_instructionStep {s t : State} (hs : WellFormed s) (h : instructionStep s = .next t) :
    WellFormed t ∧ t.params = s.params := by
  obtain ⟨a, -, rfl⟩ | ⟨-, ⟨i, -, h⟩ | ⟨f, -, rfl⟩⟩ := instructionStep_cases h
  · exact ⟨hs.raise (by decide) .., rfl⟩
  · exact hs.of_exec h
  · exact ⟨hs.of_completes (.advance s), rfl⟩

/-- Settles O53: of the scheduler's transitions only `Step` touches memory, the halt or the fault record, and none touches
the parameters. -/
theorem stepKeepsWellFormed : Obligations.StepKeepsWellFormed := by
  intro s t hs h
  obtain ⟨-, rfl⟩ | ⟨-, -, ⟨-, h⟩ | ⟨-, -, rfl⟩ | ⟨-, -, -, rfl⟩ | ⟨-, -, -, rfl⟩⟩ := schedule_cases h
  · exact ⟨hs, rfl⟩
  · exact WellFormed.of_instructionStep (s := { s with accI := s.accI - s.periodI }) hs h
  all_goals exact ⟨hs, rfl⟩

end Sys2Proof.Safety

namespace Sys2Proof.Machine

open Sys2Proof.Safety

/-! ## A stored run of bytes (R63, R65) -/

/-- Byte `k` of a run stored inside memory lies at `base + k`. -/
theorem State.byteAt_setBytes_add (s : State) {base : Nat} {bs : List Byte} (inside : base + bs.length ≤ 0x1000) {k : Nat}
    (hk : k < bs.length) : (s.setBytes base bs).byteAt (base + k) = bs[k] := by
  rw [State.byteAt_setBytes _ _ _ _ inside, dif_pos (by omega)]
  simp

/-- A run stored inside memory changes its own addresses and nothing else. -/
theorem State.changesOnly_setBytes (s : State) {base : Nat} {bs : List Byte} (inside : base + bs.length ≤ 0x1000) :
    ChangesOnly s (s.setBytes base bs) (fun p => ∃ k < bs.length, p = .byte (base + k)) := by
  intro p hp
  cases p with
  | byte a =>
    have outside : ¬ (base ≤ a ∧ a < base + bs.length) := fun ⟨low, high⟩ =>
      hp ⟨a - base, by omega, by rw [Nat.add_sub_cancel' low]⟩
    simp only [Piece.Same, State.byteAt_setBytes _ _ _ _ inside, dif_neg outside]
  | _ => simp [Piece.Same]

/-! ## Loading an image (R73, R343) -/

/-- An open port stores an image that fits from 0x200 on. -/
theorem loadImage_of_open {s : State} {image : List Byte} (hopen : s.loadOpen = true) (hlen : image.length ≤ 3584) :
    loadImage image s = .next (s.setBytes 0x200 image) := by
  unfold loadImage
  rw [if_neg (Nat.not_lt.2 hlen)]
  exact loadBytes_of_open (a := 0x200) image hopen (Nat.le_refl _) (by omega)

/-- An open port leaves byte `k` of an image that fits at `0x200 + k`, and the rest of the state as it was. -/
theorem loadImage_at_progBase {s : State} {image : List Byte} (hopen : s.loadOpen = true) (hlen : image.length ≤ 3584) :
    ∃ t, loadImage image s = .next t ∧ (∀ (k : Nat) (h : k < image.length), t.byteAt (0x200 + k) = image[k]) ∧
      t.pc = s.pc ∧ ChangesOnly s t (fun p => ∃ k < image.length, p = .byte (0x200 + k)) := by
  have inside : 0x200 + image.length ≤ 0x1000 := by omega
  exact ⟨_, loadImage_of_open hopen hlen, fun _ hk => s.byteAt_setBytes_add inside hk, by simp,
    s.changesOnly_setBytes inside⟩

/-- Settles O60: the load port is open after a reset, so `boot` is the same load on the reset state. -/
theorem imageLoadsAtProgramBase : Obligations.ImageLoadsAtProgramBase := by
  intro s image hlen
  exact ⟨fun hopen => loadImage_at_progBase hopen hlen,
    fun p now => loadImage_at_progBase (s := s.hostReset p now) rfl hlen⟩

end Sys2Proof.Machine
end

section
/-! PROOF. Encoding (30_encoding.md): decoder and encoder invert each other, the decoder follows the opcode map, whose 34
rows are disjoint, and it rejects the words of R96 family by family. -/

namespace Sys2Proof

/-! ## An instruction is read back from its word (R91, R92, R95) -/

/-- The decoder reads an instruction back from its word: the encoder's fields are the decoder's, and the one field that
can lose bits is an `NNN` operand of more than 12. -/
theorem decode_encode {i : Instr} (hi : i.wellFormed = true) : decode (encode i) = .ok i := by
  cases i with
  | cls | ret => rfl
  | jp nnn | call nnn | ldI nnn | jpV0 nnn =>
    have address : isAddress12 nnn := of_decide_eq_true hi
    simp [encode, decode, fieldNNN_wordA _ _ address]
  | seReg | sneReg => simp [encode, decode, decode5, decode9]
  | ldReg | orReg | andReg | xorReg | addReg | subReg | shr | subnReg | shl => simp [encode, decode, decode8]
  | skp | sknp => simp [encode, decode, decodeE]
  | ldFromDt | ldKey | ldToDt | ldToSt | addI | ldFont | ldBcd | dump | load => simp [encode, decode, decodeF]
  | seImm | sneImm | ldImm | addImm | rnd | drw => simp [encode, decode]

/-- Settles O1: `decode_encode`, and the two bytes of a word make the word. -/
theorem decodeInvertsEncode : Obligations.DecodeInvertsEncode := by
  intro i hi
  exact ⟨decode_encode hi, by rw [decodeBytes, wordOfBytes_highByte_lowByte, decode_encode hi]⟩

/-! ## A word is put together from its fields (R91, R92) -/

theorem toNat_fieldW (op : Word) : (fieldW op).toNat = op.toNat / 4096 := by
  have := op.isLt
  simp only [fieldW, BitVec.extractLsb'_toNat, Nat.shiftRight_eq_div_pow]
  omega

theorem toNat_fieldN (op : Word) : (fieldN op).toNat = op.toNat % 16 := by simp [fieldN]

theorem toNat_fieldNN (op : Word) : (fieldNN op).toNat = op.toNat % 256 := by simp [fieldNN]

theorem toNat_fieldNNN (op : Word) : (fieldNNN op).toNat = op.toNat % 4096 := by
  simp only [fieldNNN, BitVec.toNat_setWidth, BitVec.extractLsb'_toNat, Nat.shiftRight_zero]
  omega

theorem val_regOf_fieldX (op : Word) : (regOf (fieldX op)).val = op.toNat / 256 % 16 := by
  simp [regOf, fieldX, Nat.shiftRight_eq_div_pow]

theorem val_regOf_fieldY (op : Word) : (regOf (fieldY op)).val = op.toNat / 16 % 16 := by
  simp [regOf, fieldY, Nat.shiftRight_eq_div_pow]

theorem wordA_fields {op : Word} {w : Nat} (hw : (fieldW op).toNat = w) :
    wordA (BitVec.ofNat 4 w) (fieldNNN op) = op := by
  apply BitVec.eq_of_toNat_eq
  have := op.isLt
  rw [toNat_fieldW] at hw
  simp only [wordA, BitVec.toNat_ofNat, toNat_fieldNNN]
  omega

theorem wordXI_fields {op : Word} {w : Nat} (hw : (fieldW op).toNat = w) :
    wordXI (BitVec.ofNat 4 w) (regOf (fieldX op)) (fieldNN op) = op := by
  apply BitVec.eq_of_toNat_eq
  have := op.isLt
  rw [toNat_fieldW] at hw
  simp only [wordXI, BitVec.toNat_ofNat, val_regOf_fieldX, toNat_fieldNN]
  omega

theorem wordXY_fields {op : Word} {w : Nat} (hw : (fieldW op).toNat = w) :
    wordXY (BitVec.ofNat 4 w) (regOf (fieldX op)) (regOf (fieldY op)) (fieldN op) = op := by
  apply BitVec.eq_of_toNat_eq
  have := op.isLt
  rw [toNat_fieldW] at hw
  simp only [wordXY, BitVec.toNat_ofNat, val_regOf_fieldX, val_regOf_fieldY, toNat_fieldN]
  omega

/-! ## A decoded word is its instruction's word (R91, R95) -/

theorem encode_of_decode0 {op : Word} {i : Instr} (h : decode0 op = .ok i) : encode i = op := by
  unfold decode0 at h
  split_ifs at h with cls ret <;> cases h
  · exact cls.symm
  · exact ret.symm

theorem encode_of_decode5 {x y : Reg} {n : BitVec 4} {i : Instr} (h : decode5 x y n = .ok i) :
    encode i = wordXY 0x5 x y n := by
  unfold decode5 at h
  split_ifs at h with hn; cases h; rw [hn]; rfl

theorem encode_of_decode8 {x y : Reg} {n : BitVec 4} {i : Instr} (h : decode8 x y n = .ok i) :
    encode i = wordXY 0x8 x y n := by
  unfold decode8 at h
  split at h <;> cases h
  all_goals next hn => rw [(BitVec.toNat_eq_nat.1 hn).2]; rfl

theorem encode_of_decode9 {x y : Reg} {n : BitVec 4} {i : Instr} (h : decode9 x y n = .ok i) :
    encode i = wordXY 0x9 x y n := by
  unfold decode9 at h
  split_ifs at h with hn; cases h; rw [hn]; rfl

theorem encode_of_decodeE {x : Reg} {nn : Byte} {i : Instr} (h : decodeE x nn = .ok i) :
    encode i = wordXI 0xE x nn := by
  unfold decodeE at h
  split at h <;> cases h
  all_goals next hnn => rw [(BitVec.toNat_eq_nat.1 hnn).2]; rfl

theorem encode_of_decodeF {x : Reg} {nn : Byte} {i : Instr} (h : decodeF x nn = .ok i) :
    encode i = wordXI 0xF x nn := by
  unfold decodeF at h
  split at h <;> cases h
  all_goals next hnn => rw [(BitVec.toNat_eq_nat.1 hnn).2]; rfl

/-- Every arm of the decoder takes its operands from the fields of one format, which together are the word. -/
theorem encode_of_decode {op : Word} {i : Instr} (h : decode op = .ok i) : encode i = op := by
  unfold decode at h
  split at h
  case h_1 => exact encode_of_decode0 h
  case h_2 hw | h_3 hw | h_11 hw | h_12 hw => cases h; exact wordA_fields hw
  case h_4 hw | h_5 hw | h_7 hw | h_8 hw | h_13 hw => cases h; exact wordXI_fields hw
  case h_6 hw => exact (encode_of_decode5 h).trans (wordXY_fields hw)
  case h_9 hw => exact (encode_of_decode8 h).trans (wordXY_fields hw)
  case h_10 hw => exact (encode_of_decode9 h).trans (wordXY_fields hw)
  case h_14 hw => cases h; exact wordXY_fields hw
  case h_15 hw => exact (encode_of_decodeE h).trans (wordXI_fields hw)
  case h_16 =>
    have hw : (fieldW op).toNat = 0xF := by simp only [imp_false] at *; omega
    exact (encode_of_decodeF h).trans (wordXI_fields hw)

/-- Settles O2: the decoder's fields together are the whole word. -/
theorem encodeInvertsDecode : Obligations.EncodeInvertsDecode :=
  fun _ _ h => ⟨encode_of_decode h, decode_wellFormed h⟩

/-! ## The decoder and the opcode map (R94, R95, R99) -/

/-- The word of every instruction is selected by the instruction's row, and the row is in the map. -/
theorem wordInRow : ∀ i : Instr, Laws.WordInRow.Statement i
  | .cls => Laws.WordInRow.cls
  | .ret => Laws.WordInRow.ret
  | .jp nnn => Laws.WordInRow.jp nnn
  | .call nnn => Laws.WordInRow.call nnn
  | .seImm x nn => Laws.WordInRow.seImm x nn
  | .sneImm x nn => Laws.WordInRow.sneImm x nn
  | .seReg x y => Laws.WordInRow.seReg x y
  | .ldImm x nn => Laws.WordInRow.ldImm x nn
  | .addImm x nn => Laws.WordInRow.addImm x nn
  | .ldReg x y => Laws.WordInRow.ldReg x y
  | .orReg x y => Laws.WordInRow.orReg x y
  | .andReg x y => Laws.WordInRow.andReg x y
  | .xorReg x y => Laws.WordInRow.xorReg x y
  | .addReg x y => Laws.WordInRow.addReg x y
  | .subReg x y => Laws.WordInRow.subReg x y
  | .shr x y => Laws.WordInRow.shr x y
  | .subnReg x y => Laws.WordInRow.subnReg x y
  | .shl x y => Laws.WordInRow.shl x y
  | .sneReg x y => Laws.WordInRow.sneReg x y
  | .ldI nnn => Laws.WordInRow.ldI nnn
  | .jpV0 nnn => Laws.WordInRow.jpV0 nnn
  | .rnd x nn => Laws.WordInRow.rnd x nn
  | .drw x y n => Laws.WordInRow.drw x y n
  | .skp x => Laws.WordInRow.skp x
  | .sknp x => Laws.WordInRow.sknp x
  | .ldFromDt x => Laws.WordInRow.ldFromDt x
  | .ldKey x => Laws.WordInRow.ldKey x
  | .ldToDt x => Laws.WordInRow.ldToDt x
  | .ldToSt x => Laws.WordInRow.ldToSt x
  | .addI x => Laws.WordInRow.addI x
  | .ldFont x => Laws.WordInRow.ldFont x
  | .ldBcd x => Laws.WordInRow.ldBcd x
  | .dump x => Laws.WordInRow.dump x
  | .load x => Laws.WordInRow.load x

theorem opRow_selects_of_decode {op : Word} {i : Instr} (h : decode op = .ok i) : (opRow i).Selects op := by
  rw [← encode_of_decode h]
  exact (wordInRow i).1

/-- The decoder answers every word that a row selects: the row's mask shows it the fields on which it decides. -/
theorem decode_ok_of_opRow_selects {op : Word} {i : Instr} (h : (opRow i).Selects op) : ∃ j, decode op = .ok j := by
  cases i with
  | cls | ret =>
    obtain rfl : op = _ := (BitVec.and_allOnes (x := op)).symm.trans h
    exact ⟨_, rfl⟩
  | jp | call | seImm | sneImm | ldImm | addImm | ldI | jpV0 | rnd | drw =>
    simp only [OpRow.Selects, opRow] at h
    have hw := (selects_F000 _ _ (by decide)).1 h
    rw [decode, hw]
    exact ⟨_, rfl⟩
  | seReg | ldReg | orReg | andReg | xorReg | addReg | subReg | shr | subnReg | shl | sneReg =>
    simp only [OpRow.Selects, opRow] at h
    obtain ⟨hw, hn⟩ := (selects_F00F _ _ (by decide)).1 h
    rw [decode, hw, hn]
    exact ⟨_, rfl⟩
  | skp | sknp | ldFromDt | ldKey | ldToDt | ldToSt | addI | ldFont | ldBcd | dump | load =>
    simp only [OpRow.Selects, opRow] at h
    obtain ⟨hw, hnn⟩ := (selects_F0FF _ _ (by decide)).1 h
    rw [decode, hw, hnn]
    exact ⟨_, rfl⟩

/-- Settles O3: a decoded word is its instruction's word, which the instruction's row selects; and every row of the map is
some instruction's. -/
theorem decodeFollowsOpcodeMap : Obligations.DecodeFollowsOpcodeMap := by
  refine ⟨fun op i h => ⟨opRow_selects_of_decode h, (wordInRow i).2⟩, fun op => ⟨?_, fun noRow => ?_⟩⟩
  · rintro ⟨f, hf⟩ r hr selects
    obtain ⟨i, -, rfl⟩ := List.mem_map.1 hr
    obtain ⟨j, hj⟩ := decode_ok_of_opRow_selects selects
    cases hj.symm.trans hf
  · cases h : decode op with
    | ok i => exact absurd (opRow_selects_of_decode h) (noRow _ (wordInRow i).2)
    | error f => exact ⟨f, rfl⟩

/-- Two rows that select one word agree on the bits that both masks keep. -/
theorem OpRow.value_and_mask_of_selects {r q : OpRow} {op : Word} (hr : r.Selects op) (hq : q.Selects op) :
    r.value &&& q.mask = q.value &&& r.mask := by
  rw [← hr, ← hq, BitVec.and_assoc, BitVec.and_assoc, BitVec.and_comm r.mask]

/-- Every two rows of R95 differ on a bit that both masks keep. -/
theorem opcodeMap_pairwise_differ : opcodeMap.Pairwise fun r q => r.value &&& q.mask ≠ q.value &&& r.mask := by
  decide

/-- Settles O4: a word that two rows select would make them agree where both masks look. -/
theorem opcodeRowsAreDisjoint : Obligations.OpcodeRowsAreDisjoint :=
  ⟨rfl, fun _ => opcodeMap_pairwise_differ.imp fun differ ⟨hr, hq⟩ => differ (OpRow.value_and_mask_of_selects hr hq)⟩

/-! ## The rejected words (R96) -/

theorem decode0_eq_error_iff {op : Word} {f : Unrecognised} :
    decode0 op = .error f ↔ Unrecognised.family0 = f ∧ op ≠ 0x00E0 ∧ op ≠ 0x00EE := by
  unfold decode0
  split_ifs <;> simp_all

theorem decode5_eq_error_iff {x y : Reg} {n : BitVec 4} {f : Unrecognised} :
    decode5 x y n = .error f ↔ Unrecognised.family5 = f ∧ n ≠ 0 := by
  unfold decode5
  split_ifs <;> simp_all

theorem decode8_eq_error_iff {x y : Reg} {n : BitVec 4} {f : Unrecognised} :
    decode8 x y n = .error f ↔ Unrecognised.family8 = f ∧ 8 ≤ n.toNat ∧ n.toNat ≠ 0xE := by
  unfold decode8
  split
  case h_10 =>
    have rejected : 8 ≤ n.toNat ∧ n.toNat ≠ 0xE := by simp only [imp_false] at *; omega
    simp [rejected]
  all_goals simp [*]

theorem decode9_eq_error_iff {x y : Reg} {n : BitVec 4} {f : Unrecognised} :
    decode9 x y n = .error f ↔ Unrecognised.family9 = f ∧ n ≠ 0 := by
  unfold decode9
  split_ifs <;> simp_all

theorem decodeE_eq_error_iff {x : Reg} {nn : Byte} {f : Unrecognised} :
    decodeE x nn = .error f ↔ Unrecognised.familyE = f ∧ nn.toNat ∉ [0x9E, 0xA1] := by
  unfold decodeE
  split <;> simp_all

theorem decodeF_eq_error_iff {x : Reg} {nn : Byte} {f : Unrecognised} :
    decodeF x nn = .error f ↔
      Unrecognised.familyF = f ∧ nn.toNat ∉ [0x07, 0x0A, 0x15, 0x18, 0x1E, 0x29, 0x33, 0x55, 0x65] := by
  unfold decodeF
  split <;> simp_all

/-- The families whose words `W` alone does not assign. -/
theorem decode_eq_error_iff {op : Word} {f : Unrecognised} : decode op = .error f ↔
    ((fieldW op).toNat = 0x0 ∧ Unrecognised.family0 = f ∧ op ≠ 0x00E0 ∧ op ≠ 0x00EE) ∨
    ((fieldW op).toNat = 0x5 ∧ Unrecognised.family5 = f ∧ fieldN op ≠ 0) ∨
    ((fieldW op).toNat = 0x8 ∧ Unrecognised.family8 = f ∧ 8 ≤ (fieldN op).toNat ∧ (fieldN op).toNat ≠ 0xE) ∨
    ((fieldW op).toNat = 0x9 ∧ Unrecognised.family9 = f ∧ fieldN op ≠ 0) ∨
    ((fieldW op).toNat = 0xE ∧ Unrecognised.familyE = f ∧ (fieldNN op).toNat ∉ [0x9E, 0xA1]) ∨
    ((fieldW op).toNat = 0xF ∧ Unrecognised.familyF = f ∧
      (fieldNN op).toNat ∉ [0x07, 0x0A, 0x15, 0x18, 0x1E, 0x29, 0x33, 0x55, 0x65]) := by
  unfold decode
  split
  case h_1 hw => simp [hw, decode0_eq_error_iff]
  case h_6 hw => simp [hw, decode5_eq_error_iff]
  case h_9 hw => simp [hw, decode8_eq_error_iff]
  case h_10 hw => simp [hw, decode9_eq_error_iff]
  case h_15 hw => simp [hw, decodeE_eq_error_iff]
  case h_16 =>
    have hw : (fieldW op).toNat = 0xF := by simp only [imp_false] at *; omega
    simp [hw, decodeF_eq_error_iff]
  all_goals next hw => simp [hw]

/-- Settles O5: the fields in `decode_eq_error_iff` are quotients and remainders of the word. -/
theorem unrecognisedWordsByFamily : Obligations.UnrecognisedWordsByFamily := by
  intro op
  simp [decode_eq_error_iff, toNat_fieldW, toNat_fieldN, toNat_fieldNN, ← BitVec.toNat_inj]

/-- Settles O6: the decoder evaluates each word. -/
theorem sampleWordsDecode : Obligations.SampleWordsDecode :=
  ⟨rfl, rfl, rfl, rfl, rfl, rfl, rfl, rfl, rfl, rfl, rfl, rfl⟩

end Sys2Proof
end

section
/-! PROOF. The step cycle (40_step_cycle.md): a due step is the decoded instruction, and each instruction changes only
the pieces of the state that the spec names for it. -/

namespace Sys2Proof.Machine

/-! ## A due step (R121, R262) -/

theorem schedule_of_step_due {s : State} (running : s.halted = false) (hp : s.params.wellFormed)
    (due : s.periodI ≤ s.accI) : schedule s = s.instructionCycle := by
  simp [schedule, running, hp, State.due_eq_step.2 due]

theorem instructionStep_of_decode_ok {s : State} {i : Instr} (inside : s.pc.toNat + 2 ≤ 0x1000)
    (hi : decodeBytes (s.byteAt s.pc.toNat) (s.byteAt (s.pc.toNat + 1)) = .ok i) : instructionStep s = exec i s := by
  simp [instructionStep, firstOutside_eq_none.2 (.inr inside), hi]

/-- Settles O8: the due transition is `Step`, and taking the period off leaves what the fetch reads. -/
theorem stepRunsDecodedInstruction : Obligations.StepRunsDecodedInstruction := by
  intro s i running hp due inside hi
  have cycle : step s = s.instructionCycle := schedule_of_step_due running hp due
  exact cycle.trans
    (instructionStep_of_decode_ok (s := { s with accI := s.accI - s.periodI }) (Nat.succ_le_succ inside) hi)

end Sys2Proof.Machine

namespace Sys2Proof.Safety

open Sys2Proof.Machine

/-! ## Frames along a chain of updates

Each lemma adds one update at the end of a chain whose frame is known; the piece that the update writes has to be among
those that may be written. -/

namespace ChangesOnly

variable {s t : State} {W : Piece → Prop}

/-- `pc` is no piece, so a write of it, by `advance`, `jump` or `rewind`, is in every frame. -/
theorem setPc (h : ChangesOnly s t W) (w : Word) : ChangesOnly s { t with pc := w } W := by
  intro p hp
  have kept := h p hp
  cases p <;> exact kept

theorem advance (s : State) (W : Piece → Prop) : ChangesOnly s s.advance W := by
  have unchanged : ChangesOnly s s W := by
    intro p _
    cases p <;> simp [Piece.Same]
  exact unchanged.setPc _

theorem skipIf (h : ChangesOnly s t W) (c : Bool) : ChangesOnly s (t.skipIf c) W := by
  rw [State.skipIf_eq]
  exact h.setPc _

theorem setV (h : ChangesOnly s t W) {x : Reg} (hW : W (.reg x)) (b : Byte) : ChangesOnly s (t.setV x b) W := by
  intro p hp
  have kept := h p hp
  cases p with
  | reg r =>
    have other : r ≠ x := fun same => hp (same ▸ hW)
    simpa [Piece.Same, other] using kept
  | _ => exact kept

theorem setRegs (h : ChangesOnly s t W) {bs : List Byte} (hW : ∀ r : Reg, r.val < bs.length → W (.reg r)) :
    ChangesOnly s (t.setRegs 0 bs) W := by
  intro p hp
  have kept := h p hp
  cases p with
  | reg r =>
    have beyond : ¬ r.val < bs.length := fun inRun => hp (hW r inRun)
    simpa [Piece.Same, State.getV_setRegs, beyond] using kept
  | _ => rw [State.setRegs_eq]; exact kept

theorem setI (h : ChangesOnly s t W) (hW : W .index) (w : Word) : ChangesOnly s (t.setI w) W := by
  intro p hp
  have kept := h p hp
  cases p with
  | index => exact absurd hW hp
  | _ => exact kept

theorem setDt (h : ChangesOnly s t W) (hW : W .delayTimer) (b : Byte) : ChangesOnly s (t.setDt b) W := by
  intro p hp
  have kept := h p hp
  cases p with
  | delayTimer => exact absurd hW hp
  | _ => exact kept

theorem setSt (h : ChangesOnly s t W) (hW : W .soundTimer) (b : Byte) : ChangesOnly s (t.setSt b) W := by
  intro p hp
  have kept := h p hp
  cases p with
  | soundTimer => exact absurd hW hp
  | _ => exact kept

theorem drawn (h : ChangesOnly s t W) (hW : W .draws) : ChangesOnly s t.drawn W := by
  intro p hp
  have kept := h p hp
  cases p with
  | draws => exact absurd hW hp
  | _ => exact kept

theorem setBytes (h : ChangesOnly s t W) (hW : ∀ a, W (.byte a)) (base : Nat) (bs : List Byte) :
    ChangesOnly s (t.setBytes base bs) W := by
  intro p hp
  have kept := h p hp
  rw [State.setBytes_eq]
  cases p with
  | byte a => exact absurd (hW a) hp
  | _ => exact kept

theorem setDisp (h : ChangesOnly s t W) (hW : ∀ r c, W (.pixel r c)) (d : Vector (BitVec 64) 32) :
    ChangesOnly s { t with disp := d } W := by
  intro p hp
  have kept := h p hp
  cases p with
  | pixel r c => exact absurd (hW r c) hp
  | _ => exact kept

theorem setStack (h : ChangesOnly s t W) (depth : W .stackDepth) (slots : ∀ k, W (.stackSlot k)) (n : Fin 17)
    (stack : Vector Word 16) : ChangesOnly s { t with sp := n, stack := stack } W := by
  intro p hp
  have kept := h p hp
  cases p with
  | stackDepth => exact absurd depth hp
  | stackSlot k => exact absurd (slots k) hp
  | _ => exact kept

end ChangesOnly

/-! ## What each instruction may write (R126) -/

/-- The pieces that the spec names as written by an instruction, the fault record being one for those that can fault. -/
def MayWrite (i : Instr) : Piece → Prop
  | .reg r => writesRegister i r = true
  | .index => writesIndex i = true
  | .delayTimer => ∃ x, i = .ldToDt x
  | .soundTimer => ∃ x, i = .ldToSt x
  | .stackDepth | .stackSlot _ => writesStack i = true
  | .pixel _ _ => writesDisplay i = true
  | .byte _ => writesMemory i = true
  | .faultRecord => canFault i = true
  | .draws => takesInput i = true
  | .scheduler | .parameters | .loadPort => False

theorem mayWrite_reg_of_destination {i : Instr} {x : Reg} (h : destination i = some x) : MayWrite i (.reg x) := by
  cases i with
  | load y => cases h; exact decide_eq_true (Nat.le_refl _)
  | _ => simp [MayWrite, writesRegister, h]

theorem mayWrite_vf_of_writesFlag {i : Instr} (h : writesFlag i = true) : MayWrite i (.reg vf) := by
  cases i with
  | load => cases h
  | _ => simp [MayWrite, writesRegister, h]

theorem raise_changesOnly {i : Instr} (hi : canFault i = true) (s : State) {code : FaultCode} {op : Word} {addr : Nat} :
    ChangesOnly s (s.raise code op addr) (MayWrite i) := by
  obtain ⟨-, -, -, frame⟩ := s.faultsWith_raise code op addr
  exact fun p hp => frame p fun isRecord => hp (isRecord ▸ hi)

theorem execRet_changesOnly (s : State) : ∃ t, execRet s = .next t ∧ ChangesOnly s t (MayWrite .ret) := by
  have advanced : ChangesOnly s s.advance (MayWrite .ret) := .advance s _
  unfold execRet
  by_cases hsp : s.advance.sp.val = 0
  · rw [State.pop?_of_empty _ hsp]
    exact ⟨_, rfl, raise_changesOnly rfl s⟩
  · rw [State.pop?_of_pos _ (by omega)]
    exact ⟨_, rfl, (advanced.setStack rfl (fun _ => rfl) _ s.stack).setPc _⟩

theorem execCall_changesOnly (nnn : Word) (s : State) :
    ∃ t, execCall nnn s = .next t ∧ ChangesOnly s t (MayWrite (.call nnn)) := by
  have advanced : ChangesOnly s s.advance (MayWrite (.call nnn)) := .advance s _
  unfold execCall
  by_cases hsp : s.advance.sp.val < 16
  · rw [State.push?_of_lt _ _ hsp]
    exact ⟨_, rfl, (advanced.setStack rfl (fun _ => rfl) _ _).setPc _⟩
  · rw [State.push?_of_full _ _ (by have := s.advance.sp.isLt; omega)]
    exact ⟨_, rfl, raise_changesOnly rfl s⟩

theorem skipOnKey_changesOnly {i : Instr} (hi : takesInput i = true) (s : State) (keys : BitVec 16) (x : Reg)
    (down : Bool) : ChangesOnly s (s.drawn.skipOnKey keys x down) (MayWrite i) :=
  ((ChangesOnly.advance s _).drawn hi).skipIf _

theorem waitKey_changesOnly (s : State) (keys : BitVec 16) (x : Reg) :
    ChangesOnly s (s.drawn.waitKey keys x) (MayWrite (.ldKey x)) := by
  have sampled : ChangesOnly s s.advance.drawn (MayWrite (.ldKey x)) := (ChangesOnly.advance s _).drawn rfl
  unfold State.waitKey
  split_ifs
  · exact sampled.setPc _
  · exact sampled.setV (mayWrite_reg_of_destination rfl) _

/-- Every instruction answers a next state, and changes at most the pieces named for it. -/
theorem exec_changesOnly (i : Instr) (s : State) : ∃ t, exec i s = .next t ∧ ChangesOnly s t (MayWrite i) := by
  have advanced : ChangesOnly s s.advance (MayWrite i) := .advance s _
  cases i with
  | ret => exact execRet_changesOnly s
  | call nnn => exact execCall_changesOnly nnn s
  | jp | jpV0 => exact ⟨_, rfl, advanced.setPc _⟩
  | seImm | sneImm | seReg | sneReg => exact ⟨_, rfl, advanced.skipIf _⟩
  | ldImm | addImm | ldReg | orReg | andReg | xorReg | ldFromDt =>
    exact ⟨_, rfl, advanced.setV (mayWrite_reg_of_destination rfl) _⟩
  | addReg | subReg | shr | subnReg | shl =>
    exact ⟨_, rfl, (advanced.setV (mayWrite_reg_of_destination rfl) _).setV (mayWrite_vf_of_writesFlag rfl) _⟩
  | ldI | addI | ldFont => exact ⟨_, rfl, advanced.setI rfl _⟩
  | ldToDt x => exact ⟨_, rfl, advanced.setDt ⟨x, rfl⟩ _⟩
  | ldToSt x => exact ⟨_, rfl, advanced.setSt ⟨x, rfl⟩ _⟩
  | rnd => exact ⟨_, rfl, (advanced.drawn rfl).setV (mayWrite_reg_of_destination rfl) _⟩
  | ldKey x => exact ⟨_, rfl, waitKey_changesOnly s _ x⟩
  | skp | sknp =>
    simp only [exec, execSkp, execSknp]
    split_ifs
    · exact ⟨_, rfl, raise_changesOnly rfl s⟩
    · exact ⟨_, rfl, skipOnKey_changesOnly rfl s _ _ _⟩
  | cls => exact ⟨_, rfl, advanced.setDisp (fun _ _ => rfl) _⟩
  | drw =>
    simp only [exec, execDrw]
    split
    · exact ⟨_, rfl, raise_changesOnly rfl s⟩
    · exact ⟨_, rfl, (advanced.setDisp (fun _ _ => rfl) _).setV (mayWrite_vf_of_writesFlag rfl) _⟩
  | ldBcd | dump =>
    simp only [exec, execLdBcd, execDump]
    split
    · exact ⟨_, rfl, raise_changesOnly rfl s⟩
    · exact ⟨_, rfl, advanced.setBytes (fun _ => rfl) _ _⟩
  | load x =>
    simp only [exec, execLoad]
    split
    · exact ⟨_, rfl, raise_changesOnly rfl s⟩
    · have run : ∀ r : Reg, r.val < (s.bytesAt s.indirectBase (x.val + 1)).length → MayWrite (.load x) (.reg r) :=
        fun r hr => decide_eq_true (Nat.le_of_lt_succ (by simpa using hr))
      exact ⟨_, rfl, advanced.setRegs run⟩

/-- Settles O57: a piece outside `MayWrite` is as before. -/
theorem instructionsWriteOnlyTheirState : Obligations.InstructionsWriteOnlyTheirState := by
  intro i s
  obtain ⟨t, ht, frame⟩ := exec_changesOnly i s
  refine ⟨t, ht, frame .scheduler id, frame .parameters id, frame .loadPort id, ?_⟩
  exact ⟨fun hi => frame .index (ne_true_of_eq_false hi),
    fun hi a => frame (.byte a) (ne_true_of_eq_false hi),
    fun hi r c => frame (.pixel r c) (ne_true_of_eq_false hi),
    fun hi => ⟨frame .stackDepth (ne_true_of_eq_false hi), fun k => frame (.stackSlot k) (ne_true_of_eq_false hi)⟩,
    fun hi => frame .delayTimer (not_exists.2 hi), fun hi => frame .soundTimer (not_exists.2 hi),
    fun r hi => frame (.reg r) (ne_true_of_eq_false hi),
    fun hi => frame .faultRecord (ne_true_of_eq_false hi), fun hi => frame .draws (ne_true_of_eq_false hi)⟩

end Sys2Proof.Safety
end

section
/-! PROOF. Control transfer (41_flow.md): jumps and skips change `pc` alone, 2NNN pushes and 00EE pops one entry, and calls
followed by as many returns leave the call stack as it was. -/

namespace Sys2Proof.Safety

open Sys2Proof.Machine

/-! ## Frames of the call stack (R25) -/

namespace ChangesOnly

variable {s t u : State} {W W' : Piece → Prop}

theorem mono (h : ChangesOnly s t W) (wider : ∀ p, W p → W' p) : ChangesOnly s t W' :=
  fun p hp => h p fun written => hp (wider p written)

theorem trans (first : ChangesOnly s t W) (second : ChangesOnly t u W) : ChangesOnly s u W := by
  intro p hp
  have kept := first p hp
  have keptAgain := second p hp
  cases p with
  | scheduler | faultRecord => simp_all only [Piece.Same, and_self]
  | _ => exact keptAgain.trans kept

/-- A push writes `SP` and the slot that `SP` indexes. -/
theorem pushed (h : ChangesOnly s t W) (depth : W .stackDepth) {a : Word} (free : t.sp.val < 16)
    (slot : W (.stackSlot ⟨t.sp.val, free⟩)) : ChangesOnly s (t.pushed a free) W := by
  intro p hp
  have kept := h p hp
  cases p with
  | stackDepth => exact absurd depth hp
  | stackSlot k =>
    have other : k.val ≠ t.sp.val := fun same => by
      have isTop : k = ⟨t.sp.val, free⟩ := Fin.ext same
      exact hp (isTop ▸ slot)
    simpa [Piece.Same, other] using kept
  | _ => exact kept

/-- A pop writes `SP` alone. -/
theorem popped (h : ChangesOnly s t W) (depth : W .stackDepth) : ChangesOnly s t.popped W := by
  intro p hp
  have kept := h p hp
  cases p with
  | stackDepth => exact absurd depth hp
  | _ => exact kept

end ChangesOnly

/-! ## Calls and returns (R140, R142) -/

/-- With a slot free 2NNN pushes the advanced `pc` and jumps. -/
theorem exec_call_of_free {s : State} (nnn : Word) (free : s.sp.val < 16) :
    exec (.call nnn) s = .next ((s.advance.pushed (s.pc + 2) free).jump nnn) := by
  simp only [exec, execCall, State.advance_pc, State.push?_of_lt s.advance (s.pc + 2) free]

/-- With an entry held 00EE pops it and jumps to it. -/
theorem exec_ret_of_pos {s : State} (held : 0 < s.sp.val) :
    exec .ret s = .next (s.advance.popped.jump (s.slot s.topIndex)) := by
  simp only [exec, execRet, State.pop?_of_pos s.advance held]
  rfl

/-- Settles O15: the entry is in the slot before the one `SP` indexes. -/
theorem returnPopsAddress : Obligations.ReturnPopsAddress := by
  intro s held
  refine ⟨_, exec_ret_of_pos held, Nat.sub_add_cancel held, fun k hk => ?_,
    ((ChangesOnly.advance s (· = .stackDepth)).popped rfl).setPc _⟩
  have top : s.topIndex = k := Fin.ext (Nat.sub_eq_of_eq_add hk.symm)
  rw [State.jump_pc, top]

/-- Settles O18: the push is into the slot that `SP` indexes. -/
theorem callPushesReturnAddress : Obligations.CallPushesReturnAddress := by
  intro s nnn free
  exact ⟨_, exec_call_of_free nnn free, rfl, rfl, fun k hk => (State.slot_pushed _ _ free k).trans (if_pos hk),
    ((ChangesOnly.advance s _).pushed (.inl rfl) free (.inr ⟨_, rfl, rfl⟩)).setPc _⟩

/-! ## Jumps (R141, R143) -/

/-- Settles O17: `pc` is the one field that the jump writes. -/
theorem jumpGoesToAddress : Obligations.JumpGoesToAddress := by
  intro s nnn
  refine ⟨fun address => ?_, _, rfl, rfl, (ChangesOnly.advance s _).setPc _, ?_⟩
  · exact decode_encode (i := .jp nnn) (decide_eq_true address)
  · rintro rfl
    rfl

/-- Settles O20: the 16-bit sum of `NNN` and `V0` extended with zeros. -/
theorem jumpAddsV0 : Obligations.JumpAddsV0 := by
  intro s nnn
  refine ⟨_, rfl, ?_, (ChangesOnly.advance s _).setPc _⟩
  have := (s.getV 0).isLt
  rw [State.jump_pc, BitVec.toNat_add, BitVec.toNat_setWidth, Nat.mod_eq_of_lt (a := (s.getV 0).toNat) (by omega)]

/-! ## Skips (R144 to R147) -/

/-- An advance with a skip on a condition moves `pc` by 4 or by 2 and changes nothing else. -/
theorem advance_skipIf_spec (s : State) (c : Prop) [Decidable c] :
    ∃ t, (.next (s.advance.skipIf (decide c)) : Result) = .next t ∧ t.pc = (if c then s.pc + 4 else s.pc + 2) ∧
      ChangesOnly s t (fun _ => False) := by
  refine ⟨_, rfl, ?_, (ChangesOnly.advance s _).skipIf _⟩
  by_cases h : c <;> simp [h, BitVec.add_assoc]

/-- The skip on a condition that does not hold, the two distances exchanged. -/
theorem advance_skipIf_not_spec (s : State) (c : Prop) [Decidable c] :
    ∃ t, (.next (s.advance.skipIf (decide ¬c)) : Result) = .next t ∧ t.pc = (if c then s.pc + 2 else s.pc + 4) ∧
      ChangesOnly s t (fun _ => False) := by
  simpa only [ite_not] using advance_skipIf_spec s (¬c)

/-- Settles O21: 3XNN skips when `VX = NN`, 4XNN when not. -/
theorem immediateSkips : Obligations.ImmediateSkips := fun s x nn =>
  ⟨advance_skipIf_spec s (s.getV x = nn), advance_skipIf_not_spec s (s.getV x = nn)⟩

/-- Settles O22: 5XY0 skips when `VX = VY`, 9XY0 when not. -/
theorem registerSkips : Obligations.RegisterSkips := fun s x y =>
  ⟨advance_skipIf_spec s (s.getV x = s.getV y), advance_skipIf_not_spec s (s.getV x = s.getV y)⟩

/-! ## Nested calls (R148) -/

/-- The slots that hold no entry of `s`: those from `SP` on. -/
def FreeSlot (s : State) (p : Piece) : Prop := ∃ k : Fin 16, s.sp.val ≤ k.val ∧ p = .stackSlot k

theorem not_freeSlot_stackDepth (s : State) : ¬ FreeSlot s .stackDepth := fun ⟨_, _, h⟩ => nomatch h

theorem not_freeSlot_of_lt {s : State} {k : Fin 16} (held : k.val < s.sp.val) : ¬ FreeSlot s (.stackSlot k) := by
  rintro ⟨_, above, h⟩
  cases h
  omega

/-- A sequence whose first part has a next state goes on from there. -/
theorem execAll_append {is js : List Instr} {s t : State} (h : execAll is s = .next t) :
    execAll (is ++ js) s = execAll js t := by
  induction is generalizing s with
  | nil => cases h; rfl
  | cons i is ih =>
    simp only [execAll, List.cons_append] at h ⊢
    cases hi : exec i s with
    | next u => simp only [hi] at h ⊢; exact ih h
    | fault | refused => simp only [hi] at h; cases h

/-- A subroutine body that keeps the entries held at its start, called and then returned from: the return finds the
address that the call pushed. -/
theorem call_body_ret {s : State} {nnn : Word} {body : List Instr} (free : s.sp.val < 16)
    (keeps : ∀ u : State, u.sp.val = s.sp.val + 1 →
      ∃ v, execAll body u = .next v ∧ ChangesOnly u v (FreeSlot u)) :
    ∃ t, execAll (.call nnn :: (body ++ [.ret])) s = .next t ∧ t.pc = s.pc + 2 ∧ ChangesOnly s t (FreeSlot s) := by
  obtain ⟨u, called, -, deeper, pushed, callFrame⟩ := callPushesReturnAddress s nnn free
  obtain ⟨v, ran, bodyFrame⟩ := keeps u deeper
  have depth : v.sp = u.sp := bodyFrame .stackDepth (not_freeSlot_stackDepth u)
  obtain ⟨t, returned, shallower, target, retFrame⟩ := returnPopsAddress v (by omega)
  refine ⟨t, ?_, ?_, ?_⟩
  · simp only [execAll, called, execAll_append ran, returned]
  · have top : v.slot ⟨s.sp.val, free⟩ = u.slot ⟨s.sp.val, free⟩ :=
      bodyFrame (.stackSlot _) (not_freeSlot_of_lt (by simp [deeper]))
    rw [target ⟨s.sp.val, free⟩ (by simp [depth, deeper]), top, pushed _ rfl]
  · have frame : ChangesOnly s t (fun p => p = .stackDepth ∨ FreeSlot s p) := by
      refine (callFrame.mono ?_).trans ((bodyFrame.mono ?_).trans (retFrame.mono fun _ => .inl))
      · rintro p (h | ⟨k, hk, h⟩)
        · exact .inl h
        · exact .inr ⟨k, hk.ge, h⟩
      · rintro p ⟨k, above, h⟩
        exact .inr ⟨k, by omega, h⟩
    intro p hp
    by_cases isDepth : p = .stackDepth
    · subst isDepth
      exact Fin.ext (by omega)
    · exact frame p (not_or.2 ⟨isDepth, hp⟩)

/-- The calls of a list of targets, each from the target before, and as many returns. -/
def callsThenReturns (targets : List Word) : List Instr :=
  targets.map Instr.call ++ List.replicate targets.length Instr.ret

/-- The inner calls and returns are the body of the first call. -/
theorem callsThenReturns_cons (nnn : Word) (targets : List Word) :
    callsThenReturns (nnn :: targets) = .call nnn :: (callsThenReturns targets ++ [.ret]) := by
  simp [callsThenReturns, List.replicate_succ']

/-- Calls that fit, followed by as many returns, write free slots only. -/
theorem callsThenReturns_changesOnly (targets : List Word) (s : State) (fits : s.sp.val + targets.length ≤ 16) :
    ∃ t, execAll (callsThenReturns targets) s = .next t ∧ ChangesOnly s t (FreeSlot s) := by
  induction targets generalizing s with
  | nil => exact ⟨s, rfl, fun p _ => by cases p <;> simp [Piece.Same]⟩
  | cons nnn targets ih =>
    rw [List.length_cons] at fits
    rw [callsThenReturns_cons]
    obtain ⟨t, ran, -, frame⟩ := call_body_ret (s := s) (nnn := nnn) (by omega) fun u deeper => ih u (by omega)
    exact ⟨t, ran, frame⟩

/-- Settles O23: the calls after the first, with their returns, are a body that keeps the entry the first call pushed. -/
theorem callsThenReturnsComeBack : Obligations.CallsThenReturnsComeBack := by
  intro targets s nonempty fits
  cases targets with
  | nil => exact absurd rfl nonempty
  | cons nnn targets =>
    rw [List.length_cons] at fits
    have back := call_body_ret (s := s) (nnn := nnn) (by omega) fun u (deeper : u.sp.val = s.sp.val + 1) =>
      callsThenReturns_changesOnly targets u (by omega)
    rwa [← callsThenReturns_cons] at back

end Sys2Proof.Safety
end

section
/-! PROOF. Register load and ALU (42_alu.md): an operation writes `VX`, the five with a flag write `VF` after it, and the
results and flags are the numbers that the spec gives. -/

namespace Sys2Proof.Machine

/-! ## Results as numbers (R161, R166 to R170) -/

@[simp] theorem toNat_addBytes (a b : Byte) : (addBytes a b).toNat = (a.toNat + b.toNat) % 256 :=
  BitVec.toNat_ofNat _ _

theorem toNat_subBytes (a b : Byte) : ((subBytes a b).toNat : Int) = ((a.toNat : Int) - b.toNat) % 256 := by
  have := b.isLt
  rw [subBytes, BitVec.toNat_ofNat]
  omega

@[simp] theorem toNat_shiftRight (b : Byte) : (shiftRight b).toNat = b.toNat / 2 := by
  have := b.isLt
  rw [shiftRight, BitVec.toNat_ofNat]
  omega

@[simp] theorem toNat_shiftLeft (b : Byte) : (shiftLeft b).toNat = b.toNat * 2 % 256 :=
  BitVec.toNat_ofNat _ _

/-! ## Flags as numbers (R166 to R170) -/

theorem flagByte_decide (c : Prop) [Decidable c] : flagByte (decide c) = if c then 1 else 0 := by
  simp only [flagByte, decide_eq_true_eq]

theorem toNat_flagByte (f : Bool) : (flagByte f).toNat = f.toNat := by
  cases f <;> rfl

theorem toNat_flagByte_shrFlag (b : Byte) : (flagByte (shrFlag b)).toNat = b.toNat % 2 := by
  rw [toNat_flagByte, shrFlag, BitVec.getLsbD, Nat.toNat_testBit, pow_zero, Nat.div_one]

theorem toNat_flagByte_shlFlag (b : Byte) : (flagByte (shlFlag b)).toNat = b.toNat / 128 := by
  have := b.isLt
  rw [toNat_flagByte, shlFlag, BitVec.getLsbD, Nat.toNat_testBit]
  omega

end Sys2Proof.Machine

namespace Sys2Proof.Safety

open Sys2Proof.Machine

/-! ## What a result does to the state (R172) -/

/-- A result without a flag: `VX` and `pc` are all that changes. -/
theorem advance_setV_spec (s : State) (x : Reg) (b : Byte) :
    ∃ t, (.next (s.advance.setV x b) : Result) = .next t ∧ t.getV x = b ∧ t.pc = s.pc + 2 ∧
      ChangesOnly s t (· = .reg x) :=
  ⟨_, rfl, by simp, rfl, (ChangesOnly.advance s (· = .reg x)).setV rfl b⟩

/-- A result and then its flag: `VF` holds the flag whatever `X` is, and `VX` the result unless the flag took its place. -/
theorem advance_setResultAndFlag_spec (s : State) (x : Reg) (b : Byte) (f : Bool) :
    ∃ t, (.next (s.advance.setResultAndFlag x b f) : Result) = .next t ∧ (x ≠ vf → t.getV x = b) ∧
      t.getV vf = flagByte f ∧ t.pc = s.pc + 2 ∧ ChangesOnly s t (fun p => p = .reg x ∨ p = .reg vf) :=
  ⟨_, rfl, fun other => by simp [other], by simp, rfl,
    ((ChangesOnly.advance s _).setV (.inl rfl) b).setV (.inr rfl) (flagByte f)⟩

/-! ## Operations without a flag (R160 to R165) -/

/-- Settles O24: the second load writes over `NN` with `NN`. -/
theorem loadImmediate : Obligations.LoadImmediate := by
  intro s x nn
  obtain ⟨t, loaded, value, pc, frame⟩ := advance_setV_spec s x nn
  obtain ⟨u, reloaded, value', -, frame'⟩ := advance_setV_spec t x nn
  refine ⟨decode_encode (i := .ldImm x nn) rfl, t, loaded, value, pc, frame, u, reloaded, fun r => ?_⟩
  by_cases h : r = x
  · rw [h, value', value]
  · exact frame' (.reg r) fun same => h (Piece.reg.inj same)

/-- Settles O25: the sum goes to `VX` alone. -/
theorem addImmediateWraps : Obligations.AddImmediateWraps := by
  intro s x nn
  obtain ⟨t, added, sum, pc, frame⟩ := advance_setV_spec s x (addBytes (s.getV x) nn)
  exact ⟨decode_encode (i := .addImm x nn) rfl, t, added, by rw [sum, toNat_addBytes], pc, frame⟩

/-- Settles O26: each of the four writes its result to `VX` alone, and the three operations act bit by bit. -/
theorem copyAndLogic : Obligations.CopyAndLogic := by
  intro s x y
  refine ⟨decode_encode (i := .ldReg x y) rfl, decode_encode (i := .orReg x y) rfl,
    decode_encode (i := .andReg x y) rfl, decode_encode (i := .xorReg x y) rfl,
    advance_setV_spec s x (s.getV y), ?_, ?_, ?_⟩
  · obtain ⟨t, done, result, pc, frame⟩ := advance_setV_spec s x (s.getV x ||| s.getV y)
    exact ⟨t, done, fun j => by rw [result, BitVec.getLsbD_or], pc, frame⟩
  · obtain ⟨t, done, result, pc, frame⟩ := advance_setV_spec s x (s.getV x &&& s.getV y)
    exact ⟨t, done, fun j => by rw [result, BitVec.getLsbD_and], pc, frame⟩
  · obtain ⟨t, done, result, pc, frame⟩ := advance_setV_spec s x (s.getV x ^^^ s.getV y)
    exact ⟨t, done, fun j => by rw [result, BitVec.getLsbD_xor, Bool.bne_eq_xor], pc, frame⟩

/-! ## Operations with a flag (R166 to R170) -/

/-- Settles O27: the sum to `VX`, then its carry to `VF`. -/
theorem addSetsCarry : Obligations.AddSetsCarry := by
  intro s x y
  obtain ⟨t, added, sum, carry, pc, frame⟩ :=
    advance_setResultAndFlag_spec s x (addBytes (s.getV x) (s.getV y)) (carryFlag (s.getV x) (s.getV y))
  exact ⟨decode_encode (i := .addReg x y) rfl, t, added, fun other => by rw [sum other, toNat_addBytes],
    carry.trans (flagByte_decide _), pc, frame⟩

/-- A subtraction from whichever operand: the difference to `VX`, then to `VF` whether the minuend was strictly greater. -/
theorem advance_subtract_spec (s : State) (x : Reg) (minuend subtrahend : Byte) :
    ∃ t, (.next (s.advance.setResultAndFlag x (subBytes minuend subtrahend) (greaterFlag minuend subtrahend)) : Result)
        = .next t ∧
      (x ≠ vf → ((t.getV x).toNat : Int) = ((minuend.toNat : Int) - subtrahend.toNat) % 256) ∧
      t.getV vf = (if minuend.toNat > subtrahend.toNat then 1 else 0) ∧
      t.pc = s.pc + 2 ∧ ChangesOnly s t (fun p => p = .reg x ∨ p = .reg vf) := by
  obtain ⟨t, subtracted, difference, noBorrow, pc, frame⟩ :=
    advance_setResultAndFlag_spec s x (subBytes minuend subtrahend) (greaterFlag minuend subtrahend)
  exact ⟨t, subtracted, fun other => by rw [difference other, toNat_subBytes],
    noBorrow.trans (flagByte_decide _), pc, frame⟩

/-- Settles O28: `VX` is the minuend. -/
theorem subtractSetsNoBorrow : Obligations.SubtractSetsNoBorrow := fun s x y =>
  ⟨decode_encode (i := .subReg x y) rfl, advance_subtract_spec s x (s.getV x) (s.getV y)⟩

/-- Settles O29: `VY` is the minuend. -/
theorem reverseSubtractSetsNoBorrow : Obligations.ReverseSubtractSetsNoBorrow := fun s x y =>
  ⟨decode_encode (i := .subnReg x y) rfl, advance_subtract_spec s x (s.getV y) (s.getV x)⟩

/-- Settles O30: the operand's half to `VX`, then the bit shifted out to `VF`. -/
theorem shiftRightSetsLowBit : Obligations.ShiftRightSetsLowBit := by
  intro s x y
  obtain ⟨t, shifted, half, bit, pc, frame⟩ :=
    advance_setResultAndFlag_spec s x (shiftRight (s.shiftOperand x y)) (shrFlag (s.shiftOperand x y))
  exact ⟨decode_encode (i := .shr x y) rfl, t, shifted,
    fun other => by rw [half other, toNat_shiftRight, State.shiftOperand],
    by rw [bit, toNat_flagByte_shrFlag, State.shiftOperand], pc, frame⟩

/-- Settles O31: the operand's double to `VX`, then the bit shifted out to `VF`. -/
theorem shiftLeftSetsHighBit : Obligations.ShiftLeftSetsHighBit := by
  intro s x y
  obtain ⟨t, shifted, double, bit, pc, frame⟩ :=
    advance_setResultAndFlag_spec s x (shiftLeft (s.shiftOperand x y)) (shlFlag (s.shiftOperand x y))
  exact ⟨decode_encode (i := .shl x y) rfl, t, shifted,
    fun other => by rw [double other, toNat_shiftLeft, State.shiftOperand],
    by rw [bit, toNat_flagByte_shlFlag, State.shiftOperand], pc, frame⟩

end Sys2Proof.Safety
end

section
/-! PROOF. Index register and memory (43_index_memory.md): three instructions write `I` alone; FX33 and FX55 inside memory
store a run of bytes at `I`, FX65 loads one, and FX65 after FX55 restores the registers. -/

namespace Sys2Proof.Machine

/-! ## Operands as numbers (R192, R193) -/

theorem toNat_glyphAddress (a : Byte) : (glyphAddress a).toNat = 5 * (a.toNat % 16) := by
  have lowNibble : (a &&& 0x0F).toNat = a.toNat % 16 := Nat.and_two_pow_sub_one_eq_mod a.toNat 4
  rw [glyphAddress, BitVec.toNat_ofNat, lowNibble]
  omega

/-- Each digit is below 256, so the byte that holds it is the digit. -/
theorem map_toNat_decimalDigits (a : Byte) :
    (decimalDigits a).map BitVec.toNat = [a.toNat / 100, a.toNat / 10 % 10, a.toNat % 10] := by
  have := a.isLt
  simp only [decimalDigits, List.map_cons, List.map_nil, BitVec.toNat_ofNat, List.cons.injEq, and_true]
  omega

/-! ## The three accesses with their run inside memory (R193 to R195) -/

theorem exec_ldBcd_of_inside {s : State} (x : Reg) (inside : s.indirectBase + 3 ≤ 0x1000) :
    exec (.ldBcd x) s = .next (s.advance.setBytes s.indirectBase (decimalDigits (s.getV x))) := by
  simp only [exec, execLdBcd, firstOutside_eq_none.2 (.inr inside)]

theorem exec_dump_of_inside {s : State} (x : Reg) (inside : s.indirectBase + (x.val + 1) ≤ 0x1000) :
    exec (.dump x) s = .next (s.advance.setBytes s.indirectBase (s.regsUpTo x)) := by
  simp only [exec, execDump, firstOutside_eq_none.2 (.inr inside)]

theorem exec_load_of_inside {s : State} (x : Reg) (inside : s.indirectBase + (x.val + 1) ≤ 0x1000) :
    exec (.load x) s = .next (s.advance.setRegs 0 (s.bytesAt s.indirectBase (x.val + 1))) := by
  simp only [exec, execLoad, firstOutside_eq_none.2 (.inr inside)]

end Sys2Proof.Machine

namespace Sys2Proof.Safety

open Sys2Proof.Machine

/-! ## Writes of the index register (R190 to R192) -/

/-- A write of `I`: `I` and `pc` are all that changes. -/
theorem advance_setI_spec (s : State) (w : Word) :
    ∃ t, (.next (s.advance.setI w) : Result) = .next t ∧ t.i = w ∧ t.pc = s.pc + 2 ∧ ChangesOnly s t (· = .index) :=
  ⟨_, rfl, rfl, rfl, (ChangesOnly.advance s (· = .index)).setI rfl w⟩

/-- Settles O32: an address of 12 bits is read back from the word, and it goes to `I` alone. -/
theorem loadIndex : Obligations.LoadIndex := fun s nnn =>
  ⟨fun address => decode_encode (i := .ldI nnn) (decide_eq_true address), advance_setI_spec s nnn⟩

/-- Settles O33: the 16-bit sum of `I` and `VX` extended with zeros. -/
theorem addToIndexWraps : Obligations.AddToIndexWraps := by
  intro s x
  obtain ⟨t, added, sum, pc, frame⟩ := advance_setI_spec s (s.i + (s.getV x).setWidth 16)
  have extended : ((s.getV x).setWidth 16).toNat = (s.getV x).toNat := BitVec.toNat_setWidth_of_le (by decide)
  exact ⟨decode_encode (i := .addI x) rfl, t, added, by rw [sum, BitVec.toNat_add, extended], pc, frame⟩

/-- Settles O34: five bytes for each glyph, from address 0. -/
theorem loadGlyphAddress : Obligations.LoadGlyphAddress := by
  intro s x
  obtain ⟨t, loaded, address, pc, frame⟩ := advance_setI_spec s (glyphAddress (s.getV x))
  exact ⟨decode_encode (i := .ldFont x) rfl, t, loaded, by rw [address, toNat_glyphAddress], pc, frame⟩

/-! ## Stores at `I` (R193, R194) -/

/-- A run stored inside memory changes, with the advance, its own addresses and `pc`. -/
theorem advance_setBytes_changesOnly (s : State) {base : Nat} {bs : List Byte} (inside : base + bs.length ≤ 0x1000) :
    ChangesOnly s (s.advance.setBytes base bs) (fun p => ∃ k < bs.length, p = .byte (base + k)) :=
  (ChangesOnly.advance s _).trans (s.advance.changesOnly_setBytes inside)

/-- Settles O35: digit `k` is byte `k` of the stored run. -/
theorem decimalDigitsStored : Obligations.DecimalDigitsStored := by
  intro s x inside
  have run : s.indirectBase + (decimalDigits (s.getV x)).length ≤ 0x1000 := Nat.succ_le_succ inside
  have digit : ∀ k n, ((decimalDigits (s.getV x)).map BitVec.toNat)[k]? = some n →
      ((s.advance.setBytes s.indirectBase (decimalDigits (s.getV x))).byteAt (s.indirectBase + k)).toNat = n := by
    intro k n hn
    obtain ⟨hk, rfl⟩ := List.getElem?_eq_some_iff.1 hn
    rw [List.length_map] at hk
    rw [s.advance.byteAt_setBytes_add run hk, List.getElem_map]
  rw [map_toNat_decimalDigits] at digit
  exact ⟨_, exec_ldBcd_of_inside x run, digit 0 _ rfl, digit 1 _ rfl, digit 2 _ rfl, by simp,
    advance_setBytes_changesOnly s run⟩

/-- Settles O36: `Vr` is byte `r` of the stored run. -/
theorem registersDumped : Obligations.RegistersDumped := by
  intro s x inside
  have length : (s.regsUpTo x).length = x.val + 1 := s.length_regsUpTo x
  have run : s.indirectBase + (s.regsUpTo x).length ≤ 0x1000 := by omega
  refine ⟨_, exec_dump_of_inside x (length ▸ run), fun r hr => ?_, by simp,
    (advance_setBytes_changesOnly s run).mono ?_⟩
  · have inRun : r.val < (s.regsUpTo x).length := length ▸ Nat.lt_succ_of_le hr
    rw [s.advance.byteAt_setBytes_add run inRun, State.getElem_regsUpTo]
  · rintro p ⟨k, hk, isByte⟩
    exact ⟨⟨k, by omega⟩, Nat.le_of_lt_succ (length ▸ hk), isByte⟩

/-! ## Loads from `I` (R195) -/

/-- Settles O37: byte `r` of the run goes to `Vr`. -/
theorem registersLoaded : Obligations.RegistersLoaded := by
  intro s x inside
  have inRun : ∀ r : Reg, r.val < (s.bytesAt s.indirectBase (x.val + 1)).length ↔ r ≤ x := fun r => by
    rw [State.length_bytesAt, Nat.lt_succ_iff, Fin.le_def]
  refine ⟨_, exec_load_of_inside x (Nat.succ_le_succ inside), fun r hr => ?_, by simp,
    (ChangesOnly.advance s _).setRegs fun r hr => ⟨r, (inRun r).1 hr, rfl⟩⟩
  have covered := (inRun r).2 hr
  rw [State.getV_setRegs, dif_pos ⟨Nat.zero_le _, by omega⟩, State.getElem_bytesAt, Nat.sub_zero]

/-- Settles O38: FX55 keeps `I`, so FX65 reads the run that FX55 stored. -/
theorem dumpThenLoadRestores : Obligations.DumpThenLoadRestores := by
  intro s x inside
  obtain ⟨t, dumped, stored, -, frame⟩ := registersDumped s x inside
  refine ⟨t, dumped, fun u sameIndex sameMemory => ?_⟩
  have index : t.i = s.i := frame .index fun ⟨_, _, isByte⟩ => nomatch isByte
  have base : u.indirectBase = s.indirectBase := congrArg BitVec.toNat (sameIndex.trans index)
  obtain ⟨w, loaded, restored, -, -⟩ := registersLoaded u x (base ▸ inside)
  exact ⟨w, loaded, fun r hr => by rw [restored r hr, sameMemory, base, stored r hr]⟩

end Sys2Proof.Safety
end

section
/-! PROOF. Display (44_display.md): 00E0 clears every pixel, and DXYN is the pixel and collision laws of the renderer's loops
put in terms of the pixels that the sprite covers. A second draw of the same sprite covers the same pixels. -/

namespace Sys2Proof.Machine

/-! ## What the two display instructions write (R210, R211) -/

@[simp] theorem State.pixel_clearDisplay (s : State) (r : Fin 32) (c : Fin 64) : s.clearDisplay.pixel r c = false := by
  simp [State.pixel, Vector.get_eq_getElem]

theorem State.getV_vf_setCanvas (s : State) (d : Canvas) : (s.setCanvas d).getV vf = flagByte d.hit := by
  simp [State.setCanvas]

theorem exec_drw_of_inside {s : State} (x y : Reg) {n : Fin 16}
    (inside : n.val = 0 ∨ s.indirectBase + n.val ≤ 0x1000) :
    exec (.drw x y n) s = .next (s.advance.setCanvas (s.drawSprite x y (s.bytesAt s.indirectBase n.val))) := by
  simp only [exec, execDrw, firstOutside_eq_none.2 inside]

end Sys2Proof.Machine

namespace Sys2Proof.Safety

open Sys2Proof.Machine

/-- Settles O40: the display is written and `pc` advances. -/
theorem clearScreen : Obligations.ClearScreen := by
  refine ⟨decode_encode (i := .cls) rfl, fun s => ?_⟩
  exact ⟨s.advance.clearDisplay, rfl, s.advance.pixel_clearDisplay, rfl,
    (ChangesOnly.advance s _).setDisp (fun r c => ⟨r, c, rfl⟩) _⟩

/-! ## The renderer and the pixels covered (R211) -/

/-- The pixels covered, in the terms of the renderer's loops: row byte `i` of the run and its column offset `k`, counted
from the coordinates already reduced. -/
theorem covers_iff_sprite_bit (s : State) (x y : Reg) (n : Fin 16) (r : Fin 32) (c : Fin 64) :
    Covers s x y n r c ↔
      ∃ i, ∃ h : i < (s.bytesAt s.indirectBase n.val).length, ∃ k < 8,
        (s.bytesAt s.indirectBase n.val)[i].getLsbD (7 - k) = true ∧
        r = wrapRow ((s.getV y).toNat % 32 + i) ∧ c = wrapCol ((s.getV x).toNat % 64 + k) := by
  simp only [Covers, State.getElem_bytesAt, State.length_bytesAt, wrapRow, wrapCol, Fin.ext_iff, Nat.mod_add_mod,
    exists_prop, exists_and_left]

/-- A run of at most 15 rows does not come round to its first row again. -/
theorem length_sprite_le (s : State) (n : Fin 16) : (s.bytesAt s.indirectBase n.val).length ≤ 32 := by
  rw [State.length_bytesAt]
  omega

theorem pixel_drawSprite_of_covers {s : State} {x y : Reg} {n : Fin 16} {r : Fin 32} {c : Fin 64}
    (covered : Covers s x y n r c) :
    ((s.drawSprite x y (s.bytesAt s.indirectBase n.val)).disp.get r).getLsbD c.val = !s.pixel r c :=
  (Canvas.drawRows_pixel _ _ _ _ (length_sprite_le s n) r c).1 ((covers_iff_sprite_bit ..).1 covered)

theorem pixel_drawSprite_of_not_covers {s : State} {x y : Reg} {n : Fin 16} {r : Fin 32} {c : Fin 64}
    (uncovered : ¬ Covers s x y n r c) :
    ((s.drawSprite x y (s.bytesAt s.indirectBase n.val)).disp.get r).getLsbD c.val = s.pixel r c :=
  (Canvas.drawRows_pixel _ _ _ _ (length_sprite_le s n) r c).2 fun bit => uncovered ((covers_iff_sprite_bit ..).2 bit)

/-- The renderer reports a hit exactly when a covered pixel was set before the draw. -/
theorem hit_drawSprite (s : State) (x y : Reg) (n : Fin 16) :
    (s.drawSprite x y (s.bytesAt s.indirectBase n.val)).hit = true ↔
      ∃ r c, Covers s x y n r c ∧ s.pixel r c = true := by
  rw [State.drawSprite, Canvas.drawRows_hit _ _ _ _ (length_sprite_le s n)]
  constructor
  · rintro (started | ⟨i, hi, k, hk, bit, wasSet⟩)
    · cases started
    · exact ⟨_, _, (covers_iff_sprite_bit ..).2 ⟨i, hi, k, hk, bit, rfl, rfl⟩, wasSet⟩
  · rintro ⟨r, c, covered, wasSet⟩
    obtain ⟨i, hi, k, hk, bit, rfl, rfl⟩ := (covers_iff_sprite_bit ..).1 covered
    exact .inr ⟨i, hi, k, hk, bit, wasSet⟩

/-- Settles O41: the canvas that the renderer leaves is the display, and its hit is `VF`. -/
theorem drawXorsSprite : Obligations.DrawXorsSprite := by
  intro s x y n inside
  refine ⟨_, exec_drw_of_inside x y (by omega), fun r c => pixel_drawSprite_of_covers,
    fun r c => pixel_drawSprite_of_not_covers, fun collision => ?_, fun clear => ?_, rfl,
    ((ChangesOnly.advance s _).setDisp (fun r c => .inr ⟨r, c, rfl⟩) _).setV (.inl rfl) _⟩
  · rw [State.getV_vf_setCanvas, (hit_drawSprite s x y n).2 collision]
    rfl
  · have noHit : ¬ (s.drawSprite x y (s.bytesAt s.indirectBase n.val)).hit = true := by
      rw [hit_drawSprite]
      rintro ⟨r, c, covered, wasSet⟩
      exact Bool.false_ne_true ((clear r c covered).symm.trans wasSet)
    rw [State.getV_vf_setCanvas, eq_false_of_ne_true noHit]
    rfl

/-! ## The second draw (R212) -/

/-- The pixels covered depend on `I`, on memory and on the two coordinate registers alone. -/
theorem covers_congr {s t : State} {x y : Reg} (index : t.i = s.i) (memory : ∀ a, t.byteAt a = s.byteAt a)
    (column : t.getV x = s.getV x) (row : t.getV y = s.getV y) (n : Fin 16) (r : Fin 32) (c : Fin 64) :
    Covers t x y n r c ↔ Covers s x y n r c := by
  simp only [Covers, State.indirectBase, index, memory, column, row]

/-- Settles O42: the first draw keeps what `Covers` depends on, so the second inverts the same pixels, and finds one set
exactly where the first found one clear. -/
theorem drawTwiceRestores : Obligations.DrawTwiceRestores := by
  intro s x y n hx hy inside
  obtain ⟨t, drawn, inverted, kept, -, -, -, frame⟩ := drawXorsSprite s x y n inside
  have index : t.i = s.i := frame .index (by simp)
  have sameCover : ∀ r c, Covers t x y n r c ↔ Covers s x y n r c :=
    covers_congr index (fun a => frame (.byte a) (by simp)) (frame (.reg x) (by simp [hx]))
      (frame (.reg y) (by simp [hy])) n
  have base : t.indirectBase = s.indirectBase := congrArg BitVec.toNat index
  obtain ⟨u, redrawn, inverted', kept', collision, noCollision, -, -⟩ := drawXorsSprite t x y n (base ▸ inside)
  have restored : ∀ r c, u.pixel r c = s.pixel r c := by
    intro r c
    by_cases covered : Covers s x y n r c
    · rw [inverted' r c ((sameCover r c).2 covered), inverted r c covered, Bool.not_not]
    · rw [kept' r c (mt (sameCover r c).1 covered), kept r c covered]
  refine ⟨t, u, drawn, redrawn, restored, fun flag => ?_, ?_⟩
  · by_contra allSet
    have clear : ∀ r c, Covers t x y n r c → t.pixel r c = false := by
      intro r c covered
      have covered := (sameCover r c).1 covered
      have wasSet : s.pixel r c = true := eq_true_of_ne_false fun wasClear => allSet ⟨r, c, covered, wasClear⟩
      rw [inverted r c covered, wasSet, Bool.not_true]
    exact absurd (flag.symm.trans (noCollision clear)) (by decide)
  · rintro ⟨r, c, covered, wasClear⟩
    refine collision ⟨r, c, (sameCover r c).2 covered, ?_⟩
    rw [inverted r c covered, wasClear, Bool.not_false]

end Sys2Proof.Safety
end

section
/-! PROOF. Keypad, timers, random (45_keypad_timers_random.md): EX9E, EXA1, FX0A and CXNN take one free input, and FX0A
the lowest key down in it; the timer moves write one field each. -/

namespace Sys2Proof.Machine

/-! ## The sample (R230 to R232) -/

/-- In a sample with a key down, `lowestKey` is the least key down. -/
theorem lowestKey_spec {keys : BitVec 16} (down : keys ≠ 0) :
    lowestKey keys < 16 ∧ keys.getLsbD (lowestKey keys) = true ∧ ∀ j < lowestKey keys, keys.getLsbD j = false := by
  unfold lowestKey
  cases found : (List.range 16).find? fun k => keys.getLsbD k with
  | none =>
    rw [List.find?_range_eq_none] at found
    exact absurd (BitVec.eq_of_getLsbD_eq fun k hk => by simpa using found k hk) down
  | some k =>
    obtain ⟨isDown, inSample, isLeast⟩ := List.find?_range_eq_some.1 found
    exact ⟨List.mem_range.1 inSample, isDown, fun j hj => by simpa using isLeast j hj⟩

/-- The lowest key is below 256, so the byte that FX0A writes is the key. -/
theorem toNat_ofNat_lowestKey {keys : BitVec 16} (down : keys ≠ 0) :
    (BitVec.ofNat 8 (lowestKey keys)).toNat = lowestKey keys := by
  obtain ⟨isKey, -, -⟩ := lowestKey_spec down
  rw [BitVec.toNat_ofNat]
  omega

theorem State.skipOnKey_pc (s : State) (keys : BitVec 16) (x : Reg) (down : Bool) :
    (s.skipOnKey keys x down).pc = if keys.getLsbD (s.getV x).toNat = down then s.pc + 4 else s.pc + 2 := by
  simp [State.skipOnKey, BitVec.add_assoc]

/-! ## The instructions that sample the keypad (R230 to R232) -/

theorem exec_skp_of_key {s : State} {x : Reg} (isKey : (s.getV x).toNat ≤ 0xF) :
    exec (.skp x) s = .next (s.drawn.skipOnKey (Config.freeKeys s.draws) x true) :=
  if_neg (Nat.not_lt.2 isKey)

theorem exec_sknp_of_key {s : State} {x : Reg} (isKey : (s.getV x).toNat ≤ 0xF) :
    exec (.sknp x) s = .next (s.drawn.skipOnKey (Config.freeKeys s.draws) x false) :=
  if_neg (Nat.not_lt.2 isKey)

/-- With no key down FX0A takes the advance back. -/
theorem exec_ldKey_of_empty {s : State} (x : Reg) (empty : Config.freeKeys s.draws = 0) :
    exec (.ldKey x) s = .next s.drawn.advance.rewind :=
  congrArg Host.Outcome.next (if_pos empty)

theorem exec_ldKey_of_down {s : State} (x : Reg) (down : Config.freeKeys s.draws ≠ 0) :
    exec (.ldKey x) s = .next (s.drawn.advance.setV x (BitVec.ofNat 8 (lowestKey (Config.freeKeys s.draws)))) :=
  congrArg Host.Outcome.next (if_neg down)

end Sys2Proof.Machine

namespace Sys2Proof.Safety

open Sys2Proof.Machine

/-! ## What taking a free input leaves unchanged (R237, R238) -/

/-- A free input taken and the advance: the draw counter and `pc` are all that changes. -/
theorem drawn_advance_changesOnly (s : State) (W : Piece → Prop) (hW : W .draws) : ChangesOnly s s.drawn.advance W :=
  (ChangesOnly.advance s W).drawn hW

/-- A free input taken and a register written: besides the draw counter and `pc`, only that register changes. -/
theorem drawn_advance_setV_spec (s : State) (x : Reg) (b : Byte) :
    ∃ t, (.next (s.drawn.advance.setV x b) : Result) = .next t ∧ t.getV x = b ∧ t.draws = s.draws + 1 ∧
      t.pc = s.pc + 2 ∧ ChangesOnly s t (fun p => p = .draws ∨ p = .reg x) :=
  ⟨_, rfl, by simp, rfl, rfl, (drawn_advance_changesOnly s _ (.inl rfl)).setV (.inr rfl) b⟩

/-! ## Keypad (R230 to R232) -/

/-- The skip on a sampled key: besides `pc`, the draw counter is all that changes. -/
theorem drawn_skipOnKey_spec (s : State) (keys : BitVec 16) (x : Reg) (down : Bool) :
    ∃ t, (.next (s.drawn.skipOnKey keys x down) : Result) = .next t ∧ t.draws = s.draws + 1 ∧
      t.pc = (if keys.getLsbD (s.getV x).toNat = down then s.pc + 4 else s.pc + 2) ∧ ChangesOnly s t (· = .draws) :=
  ⟨_, rfl, State.skipIf_draws _ _, State.skipOnKey_pc _ _ _ _,
    (drawn_advance_changesOnly s (· = .draws) rfl).skipIf _⟩

/-- Settles O43: an index up to F passes the range check; EXA1 skips when the key is not down, which exchanges the two
distances. -/
theorem keySkips : Obligations.KeySkips := by
  intro s x isKey
  constructor
  · rw [exec_skp_of_key isKey]
    exact drawn_skipOnKey_spec s _ x true
  · rw [exec_sknp_of_key isKey]
    simpa only [← Bool.not_eq_true, ite_not] using drawn_skipOnKey_spec s (Config.freeKeys s.draws) x false

/-- Settles O45: with no key down the rewind undoes the advance; else `VX` becomes the lowest key. -/
theorem keyWaitTakesLowestKey : Obligations.KeyWaitTakesLowestKey := by
  intro s x
  by_cases empty : Config.freeKeys s.draws = 0
  · refine ⟨_, exec_ldKey_of_empty x empty, rfl, ?_⟩
    rw [if_pos empty]
    exact ⟨BitVec.add_sub_cancel s.pc 2, (drawn_advance_changesOnly s (· = .draws) rfl).setPc _⟩
  · obtain ⟨t, taken, value, draws, pc, frame⟩ :=
      drawn_advance_setV_spec s x (BitVec.ofNat 8 (lowestKey (Config.freeKeys s.draws)))
    refine ⟨t, (exec_ldKey_of_down x empty).trans taken, draws, ?_⟩
    rw [if_neg empty, value, toNat_ofNat_lowestKey empty]
    exact ⟨pc, frame, lowestKey_spec empty⟩

/-! ## Timers (R233 to R235) -/

/-- Settles O46: each move writes one field, and `snd_on` is read from `ST`. -/
theorem timerMoves : Obligations.TimerMoves := by
  intro s x
  refine ⟨decode_encode (i := .ldFromDt x) rfl, decode_encode (i := .ldToDt x) rfl,
    decode_encode (i := .ldToSt x) rfl, advance_setV_spec s x s.dt, ?_, ?_⟩
  · exact ⟨_, rfl, rfl, rfl, (ChangesOnly.advance s (· = .delayTimer)).setDt rfl _⟩
  · exact ⟨_, rfl, rfl, decide_eq_true_iff, rfl, (ChangesOnly.advance s (· = .soundTimer)).setSt rfl _⟩

/-! ## Random (R236) -/

/-- Settles O47: the mask leaves no bit outside `NN`. -/
theorem randomIsMasked : Obligations.RandomIsMasked := by
  intro s x nn
  obtain ⟨t, taken, value, draws, pc, frame⟩ := drawn_advance_setV_spec s x (Config.freeRandom s.draws &&& nn)
  have masked : t.getV x &&& ~~~nn = 0 := by
    rw [value, BitVec.and_assoc, BitVec.and_not_self]
    exact BitVec.and_zero
  exact ⟨decode_encode (i := .rnd x nn) rfl, t, taken, value, masked, draws, pc, frame⟩

end Sys2Proof.Safety
end

section
/-! PROOF. Unrecognised words (46_unrecognized.md): the due step over one is the advance of `pc`, and with the period taken
off no more than the scheduler's accumulator changes. -/

namespace Sys2Proof.Machine

/-! ## The instruction step on an unrecognised word (R250) -/

theorem instructionStep_of_decode_error {s : State} {f : Unrecognised} (inside : s.pc.toNat + 2 ≤ 0x1000)
    (hf : decodeBytes (s.byteAt s.pc.toNat) (s.byteAt (s.pc.toNat + 1)) = .error f) :
    instructionStep s = .next s.advance := by
  simp [instructionStep, firstOutside_eq_none.2 (.inr inside), hf, execUnrecognised]

end Sys2Proof.Machine

namespace Sys2Proof.Safety

open Sys2Proof.Machine

/-! ## The due step over an unrecognised word (R250, R262) -/

theorem ChangesOnly.setAccI {s t : State} {W : Piece → Prop} (h : ChangesOnly s t W) (hW : W .scheduler) (a : Nat) :
    ChangesOnly s { t with accI := a } W := by
  intro p hp
  have kept := h p hp
  cases p with
  | scheduler => exact absurd hW hp
  | _ => exact kept

/-- Settles O9: the due transition is `Step`, which fetches from the state with the period taken off and only advances. -/
theorem stepPassesUnrecognisedWord : Obligations.StepPassesUnrecognisedWord := by
  intro s f running hp due inside hf
  have cycle : step s = s.instructionCycle := schedule_of_step_due running hp due
  have passes : s.instructionCycle = .next { s with accI := s.accI - s.periodI }.advance :=
    instructionStep_of_decode_error (s := { s with accI := s.accI - s.periodI }) (Nat.succ_le_succ inside) hf
  exact ⟨_, cycle.trans passes, rfl, running, rfl, rfl, rfl, rfl,
    (ChangesOnly.advance s (· = .scheduler)).setAccI rfl _⟩

end Sys2Proof.Safety
end

section
/-! PROOF. The scheduler (47_scheduler.md): each drain of `Iterate` is as many steps of the machine as it takes periods off,
and no transition brings the timer and the render accumulator out of step. -/

namespace Sys2Proof.Machine

open Sys2Proof.Safety

/-! ## The transition that is due (R262, R263, R268) -/

theorem step_of_halted {s : State} (halted : s.halted = true) : step s = .next s := by
  simp [step, schedule, halted]

theorem step_of_timerTick_due {s : State} (running : s.halted = false) (hp : s.params.wellFormed)
    (due : s.due = .timerTick) : step s = .next s.timerCycle := by
  simp [step, schedule, running, hp, due]

theorem step_of_renderTick_due {s : State} (running : s.halted = false) (hp : s.params.wellFormed)
    (due : s.due = .renderTick) : step s = .next { s with accR := s.accR - s.periodR } := by
  simp [step, schedule, running, hp, due, State.renderCycle, State.renderTick]

theorem step_of_beginIterate_due {s : State} (running : s.halted = false) (hp : s.params.wellFormed)
    (due : s.due = .beginIterate) : step s = .next (s.drawn.beginIterate s.clockNow) := by
  simp [step, schedule, running, hp, due]

theorem State.frameValid_of_renderTick_due {s : State} (running : s.halted = false) (due : s.due = .renderTick) :
    s.frameValid = some s.fb :=
  if_pos ⟨running, due⟩

theorem State.frameValid_of_no_renderTick_due {s : State} (due : s.due ≠ .renderTick) : s.frameValid = none :=
  if_neg fun ⟨_, render⟩ => due render

/-- The clock sample of the next iteration, as the elapsed time that it adds (R261). -/
theorem State.beginIterate_clockNow (s : State) :
    s.drawn.beginIterate s.clockNow = { s with
      lastTime := s.lastTime + Config.freeClockAdvance s.draws
      accI := s.accI + Config.freeClockAdvance s.draws
      accT := s.accT + Config.freeClockAdvance s.draws
      accR := s.accR + Config.freeClockAdvance s.draws
      draws := s.draws + 1
      loadOpen := false } := by
  simp [State.beginIterate, State.clockNow, State.drawn]

/-- Settles O12: the accumulators say which transition is due. -/
theorem stepDrainsThenIterates : Obligations.StepDrainsThenIterates := by
  intro s running hp idle
  refine ⟨fun tick => ?_, fun noTick render => ?_, fun noTick noRender => ?_⟩
  · have due : s.due = .timerTick := State.due_eq_timerTick.2 ⟨idle, tick⟩
    exact ⟨State.frameValid_of_no_renderTick_due (by simp [due]), step_of_timerTick_due running hp due⟩
  · have due : s.due = .renderTick := State.due_eq_renderTick.2 ⟨idle, noTick, render⟩
    exact ⟨State.frameValid_of_renderTick_due running due, step_of_renderTick_due running hp due⟩
  · have due : s.due = .beginIterate := State.due_eq_beginIterate.2 ⟨idle, noTick, noRender⟩
    rw [← s.beginIterate_clockNow]
    exact ⟨State.frameValid_of_no_renderTick_due (by simp [due]), step_of_beginIterate_due running hp due⟩

/-! ## Timer ticks (R265) -/

theorem toNat_decrementIfPositive (b : Byte) : (decrementIfPositive b).toNat = b.toNat - 1 := by
  unfold decrementIfPositive
  split_ifs <;> bv_omega

theorem toNat_iterate_decrementIfPositive (k : Nat) (b : Byte) : (decrementIfPositive^[k] b).toNat = b.toNat - k := by
  induction k generalizing b with
  | zero => rfl
  | succ k ih => rw [Function.iterate_succ_apply, ih, toNat_decrementIfPositive, Nat.sub_sub, Nat.add_comm]

/-- `k` timer ticks decrement each timer `k` times and change nothing else. -/
theorem State.iterate_timerTick (s : State) (k : Nat) :
    State.timerTick^[k] s = (s.setDt (decrementIfPositive^[k] s.dt)).setSt (decrementIfPositive^[k] s.st) := by
  induction k generalizing s with
  | zero => rfl
  | succ k ih => rw [Function.iterate_succ_apply, ih]; rfl

theorem State.changesOnly_timerTick (s : State) :
    ChangesOnly s s.timerTick (fun p => p = .delayTimer ∨ p = .soundTimer) := by
  intro p hp
  cases p with
  | delayTimer => exact absurd (.inl rfl) hp
  | soundTimer => exact absurd (.inr rfl) hp
  | _ => simp [Piece.Same]

/-- Settles O48: `k` ticks are `k` decrements of each timer. -/
theorem timersDecayToZero : Obligations.TimersDecayToZero := by
  intro s k
  refine ⟨⟨toNat_decrementIfPositive s.dt, toNat_decrementIfPositive s.st, rfl, s.changesOnly_timerTick⟩, ?_⟩
  rw [s.iterate_timerTick k]
  exact ⟨toNat_iterate_decrementIfPositive k s.dt, toNat_iterate_decrementIfPositive k s.st⟩

/-! ## What an instruction step leaves to the ticks (R126, R262) -/

/-- From `s` to `t` the scheduler's state is kept but for the instruction accumulator, and so are the parameters and the
load port. -/
structure KeepsTicks (s t : State) : Prop where
  accT : t.accT = s.accT
  accR : t.accR = s.accR
  lastTime : t.lastTime = s.lastTime
  params : t.params = s.params
  loadOpen : t.loadOpen = s.loadOpen

namespace KeepsTicks

variable {s t u : State}

theorem refl (s : State) : KeepsTicks s s := ⟨rfl, rfl, rfl, rfl, rfl⟩

theorem trans (h : KeepsTicks s t) (k : KeepsTicks t u) : KeepsTicks s u :=
  ⟨k.accT.trans h.accT, k.accR.trans h.accR, k.lastTime.trans h.lastTime, k.params.trans h.params,
    k.loadOpen.trans h.loadOpen⟩

theorem periodI (h : KeepsTicks s t) : t.periodI = s.periodI := by simp only [State.periodI, h.params]
theorem periodT (h : KeepsTicks s t) : t.periodT = s.periodT := by simp only [State.periodT, h.params]
theorem periodR (h : KeepsTicks s t) : t.periodR = s.periodR := by simp only [State.periodR, h.params]

end KeepsTicks

/-- A fetch fault, an instruction and an unrecognised word all answer a next state and leave the scheduler's state alone. -/
theorem instructionStep_keepsTicks (s : State) :
    ∃ t, instructionStep s = .next t ∧ t.accI = s.accI ∧ KeepsTicks s t := by
  unfold instructionStep
  split
  · exact ⟨_, rfl, rfl, rfl, rfl, rfl, rfl, rfl⟩
  · split
    · next i _ =>
      obtain ⟨t, ht, ⟨accI, accT, accR, lastTime⟩, params, loadOpen, -⟩ := instructionsWriteOnlyTheirState i s
      exact ⟨t, ht, accI, accT, accR, lastTime, params, loadOpen⟩
    · exact ⟨_, rfl, rfl, rfl, rfl, rfl, rfl, rfl⟩

theorem State.instructionCycle_keepsTicks (s : State) :
    ∃ t, s.instructionCycle = .next t ∧ t.accI = s.accI - s.periodI ∧ KeepsTicks s t := by
  obtain ⟨t, ht, accI, kept⟩ := instructionStep_keepsTicks { s with accI := s.accI - s.periodI }
  exact ⟨t, ht, accI, kept.accT, kept.accR, kept.lastTime, kept.params, kept.loadOpen⟩

end Sys2Proof.Machine

namespace Sys2Proof.Safety

open Sys2Proof.Machine

/-! ## Lockstep (R267) -/

theorem Lockstep.of_instructionCycle {s t : State} (hs : Lockstep s) (due : s.periodI ≤ s.accI)
    (h : s.instructionCycle = .next t) : Lockstep t := by
  obtain ⟨u, hu, -, kept⟩ := s.instructionCycle_keepsTicks
  cases hu.symm.trans h
  obtain ⟨behind, congruent, equal⟩ := hs
  unfold Lockstep
  rw [kept.accT, kept.accR, kept.periodT, kept.periodR]
  exact ⟨behind, congruent, fun _ => equal due⟩

theorem Lockstep.timerCycle {s : State} (hs : Lockstep s) (idle : s.accI < s.periodI) (due : s.periodT ≤ s.accT) :
    Lockstep s.timerCycle := by
  obtain ⟨behind, congruent, -⟩ := hs
  exact ⟨(Nat.sub_le ..).trans behind, (Nat.mod_eq_sub_mod due).symm.trans congruent,
    fun stepDue => absurd stepDue (Nat.not_le.2 idle)⟩

/-- Below its period the timer accumulator is its own remainder, which is that of the render accumulator. -/
theorem Lockstep.accT_eq_mod {s : State} (hs : Lockstep s) (noTick : s.accT < s.periodT) : s.accT = s.accR % s.periodR := by
  obtain ⟨-, congruent, -⟩ := hs
  rw [← congruent, Nat.mod_eq_of_lt noTick]

theorem Lockstep.renderCycle {s : State} (hs : Lockstep s) (idle : s.accI < s.periodI) (noTick : s.accT < s.periodT)
    (due : s.periodR ≤ s.accR) : Lockstep { s with accR := s.accR - s.periodR } := by
  have left : s.accT = (s.accR - s.periodR) % s.periodR := (hs.accT_eq_mod noTick).trans (Nat.mod_eq_sub_mod due)
  obtain ⟨-, congruent, -⟩ := hs
  exact ⟨left.le.trans (Nat.mod_le ..), congruent.trans (Nat.mod_eq_sub_mod due),
    fun stepDue => absurd stepDue (Nat.not_le.2 idle)⟩

/-- Between iterations both accumulators are below their common period. -/
theorem Lockstep.accT_eq_accR {s : State} (hs : Lockstep s) (noTick : s.accT < s.periodT) (noRender : s.accR < s.periodR) :
    s.accT = s.accR :=
  (hs.accT_eq_mod noTick).trans (Nat.mod_eq_of_lt noRender)

theorem lockstep_of_accT_eq_accR {s : State} (equal : s.accT = s.accR) : Lockstep s :=
  ⟨equal.le, congrArg (· % s.periodT) equal, fun _ => equal⟩

/-- Settles O52: a step keeps both accumulators, takes one period off one of them, or adds one time to two equal ones. -/
theorem stepKeepsLockstep : Obligations.StepKeepsLockstep := by
  refine ⟨fun s t hs h => ?_, fun s hs due => ?_⟩
  · obtain ⟨-, rfl⟩ | ⟨-, -, ⟨due, h⟩ | ⟨idle, due, rfl⟩ | ⟨idle, noTick, due, rfl⟩ | ⟨-, noTick, noRender, rfl⟩⟩ :=
      schedule_cases h
    · exact hs
    · exact hs.of_instructionCycle due h
    · exact hs.timerCycle idle due
    · exact hs.renderCycle idle noTick due
    · exact lockstep_of_accT_eq_accR (congrArg (· + _) (hs.accT_eq_accR noTick noRender))
  · obtain ⟨-, noTick, noRender⟩ := State.due_eq_beginIterate.1 due
    exact hs.accT_eq_accR noTick noRender

end Sys2Proof.Safety

namespace Sys2Proof.Machine

open Sys2Proof.Safety

/-! ## The drains on a halted machine (R268) -/

theorem runSteps_of_halted {s : State} (halted : s.halted = true) (n : Nat) : runSteps n s = .next s := by
  induction n with
  | zero => rfl
  | succ n ih => rw [runSteps_succ n (step_of_halted halted), ih]

theorem drainSteps_of_halted {s : State} (halted : s.halted = true) (n : Nat) : drainSteps n s = .next s := by
  cases n <;> simp [drainSteps, halted]

theorem State.drainTicks_of_halted {s : State} (halted : s.halted = true) : s.drainTicks = ⟨[], s⟩ := by
  have noTimers (n : Nat) : drainTimers n s = s := by cases n <;> simp [drainTimers, halted]
  have noRenders (n : Nat) : drainRenders n s = ([], s) := by cases n <;> simp [drainRenders, halted]
  simp [State.drainTicks, noTimers, noRenders]

/-! ## Each drain as steps of the machine (R262, R264) -/

/-- A drain of `n + 1` periods can take one off, and then `n` more. -/
theorem le_and_mul_le_sub {n p a : Nat} (h : (n + 1) * p ≤ a) : p ≤ a ∧ n * p ≤ a - p := by
  rw [Nat.succ_mul] at h
  omega

theorem sub_sub_mul (n p a : Nat) : a - p - n * p = a - (n + 1) * p := by
  rw [Nat.succ_mul, Nat.sub_sub, Nat.add_comm]

/-- The instruction drain of `n` periods is `n` steps. A fault stops it early; the steps left over then find a halted machine
and change nothing. -/
theorem drainSteps_eq_runSteps (n : Nat) {s : State} (hp : s.params.wellFormed) (enough : n * s.periodI ≤ s.accI) :
    ∃ t, drainSteps n s = .next t ∧ runSteps n s = .next t ∧ KeepsTicks s t ∧
      (t.halted = false → t.accI = s.accI - n * s.periodI) := by
  induction n generalizing s with
  | zero => exact ⟨s, rfl, rfl, .refl s, fun _ => by simp⟩
  | succ n ih =>
    cases running : s.halted with
    | true =>
      exact ⟨s, drainSteps_of_halted running _, runSteps_of_halted running _, .refl s, by simp [running]⟩
    | false =>
      obtain ⟨due, more⟩ := le_and_mul_le_sub enough
      obtain ⟨u, cycle, accI, kept⟩ := s.instructionCycle_keepsTicks
      rw [← accI, ← kept.periodI] at more
      obtain ⟨t, drained, ran, rest, left⟩ := ih (kept.params ▸ hp) more
      refine ⟨t, ?_, ?_, kept.trans rest, fun hrun => ?_⟩
      · simp [drainSteps, running, due, cycle, drained]
      · rw [runSteps_succ n ((schedule_of_step_due running hp due).trans cycle), ran]
      · rw [left hrun, accI, kept.periodI, sub_sub_mul]

/-- `s` after a timer drain of `n` periods. -/
def State.timersDrained (n : Nat) (s : State) : State :=
  { s with
    dt := decrementIfPositive^[n] s.dt
    st := decrementIfPositive^[n] s.st
    accT := s.accT - n * s.periodT }

theorem drainTimers_eq (n : Nat) {s : State} (running : s.halted = false) (enough : n * s.periodT ≤ s.accT) :
    drainTimers n s = s.timersDrained n := by
  induction n generalizing s with
  | zero => simp [drainTimers, State.timersDrained]
  | succ n ih =>
    obtain ⟨due, more⟩ := le_and_mul_le_sub enough
    rw [drainTimers, if_pos ⟨running, due⟩, ih (s := s.timerCycle) running more, State.timersDrained, State.timersDrained,
      ← sub_sub_mul]
    rfl

theorem runSteps_eq_drainTimers (n : Nat) {s : State} (running : s.halted = false) (hp : s.params.wellFormed)
    (idle : s.accI < s.periodI) (enough : n * s.periodT ≤ s.accT) : runSteps n s = .next (drainTimers n s) := by
  induction n generalizing s with
  | zero => rfl
  | succ n ih =>
    obtain ⟨due, more⟩ := le_and_mul_le_sub enough
    rw [drainTimers, if_pos ⟨running, due⟩,
      runSteps_succ n (step_of_timerTick_due running hp (State.due_eq_timerTick.2 ⟨idle, due⟩))]
    exact ih (s := s.timerCycle) running hp idle more

/-- The render drain hands off the present frame once per period and takes the periods off (R266). -/
theorem drainRenders_eq (n : Nat) {s : State} (running : s.halted = false) (enough : n * s.periodR ≤ s.accR) :
    drainRenders n s = (List.replicate n s.fb, { s with accR := s.accR - n * s.periodR }) := by
  induction n generalizing s with
  | zero => simp [drainRenders]
  | succ n ih =>
    obtain ⟨due, more⟩ := le_and_mul_le_sub enough
    rw [drainRenders, if_pos ⟨running, due⟩, ih (s := s.renderCycle.2) running more, ← sub_sub_mul]
    rfl

theorem runSteps_eq_drainRenders (n : Nat) {s : State} (running : s.halted = false) (hp : s.params.wellFormed)
    (idle : s.accI < s.periodI) (noTick : s.accT < s.periodT) (enough : n * s.periodR ≤ s.accR) :
    runSteps n s = .next (drainRenders n s).2 := by
  induction n generalizing s with
  | zero => rfl
  | succ n ih =>
    obtain ⟨due, more⟩ := le_and_mul_le_sub enough
    rw [drainRenders, if_pos ⟨running, due⟩,
      runSteps_succ n (step_of_renderTick_due running hp (State.due_eq_renderTick.2 ⟨idle, noTick, due⟩))]
    exact ih (s := s.renderCycle.2) running hp idle noTick more

/-! ## The timer drain and then the render drain (R263) -/

/-- A full timer drain leaves the accumulator its remainder. -/
theorem State.timersDrained_accT (s : State) :
    (s.timersDrained (s.accT / s.periodT)).accT = s.accT % s.periodT :=
  Nat.mod_eq_sub_div_mul.symm

/-- On a running machine the tick drains leave each accumulator its remainder, and every frame is the present display. -/
theorem State.drainTicks_of_running {s : State} (running : s.halted = false) :
    s.drainTicks = ⟨List.replicate (s.accR / s.periodR) s.fb,
      { s.timersDrained (s.accT / s.periodT) with accR := s.accR % s.periodR }⟩ := by
  have timers := drainTimers_eq _ running (Nat.div_mul_le_self s.accT s.periodT)
  have renders := drainRenders_eq (s := s.timersDrained (s.accT / s.periodT)) _ running (Nat.div_mul_le_self ..)
  simp only [State.drainTicks, timers, renders]
  rw [← Nat.mod_eq_sub_div_mul]
  rfl

/-- Once no instruction is due, the tick drains are one step per period on each accumulator. -/
theorem runSteps_eq_drainTicks {s : State} (hp : s.params.wellFormed) (idle : s.halted = false → s.accI < s.periodI) :
    runSteps (s.accT / s.periodT + s.accR / s.periodR) s = .next s.drainTicks.state := by
  cases running : s.halted with
  | true => rw [runSteps_of_halted running, State.drainTicks_of_halted running]
  | false =>
    have enough : s.accT / s.periodT * s.periodT ≤ s.accT := Nat.div_mul_le_self ..
    have noTick : (s.timersDrained (s.accT / s.periodT)).accT < s.periodT :=
      s.timersDrained_accT ▸ Nat.mod_lt _ (State.periodT_pos hp)
    rw [runSteps_add _ (runSteps_eq_drainTimers _ running hp (idle running) enough), State.drainTicks]
    simp only [drainTimers_eq _ running enough]
    exact runSteps_eq_drainRenders (s := s.timersDrained _) _ running hp (idle running) noTick (Nat.div_mul_le_self ..)

/-! ## A whole iteration (R262) -/

/-- `Iterate` answers what the tick drains make of the state that the instruction drain leaves. -/
theorem iterate_eq_drainTicks {s : State} {now : Nat} (running : s.halted = false) (hp : s.params.wellFormed)
    (forward : s.lastTime ≤ now) :
    ∃ t, iterate now s = .next t.drainTicks ∧
      runSteps ((s.beginIterate now).accI / s.periodI) (s.beginIterate now) = .next t ∧
      KeepsTicks (s.beginIterate now) t ∧
      (t.halted = false → t.accI = (s.beginIterate now).accI % s.periodI) := by
  obtain ⟨t, drained, ran, kept, left⟩ :=
    drainSteps_eq_runSteps ((s.beginIterate now).accI / s.periodI) (s := s.beginIterate now) hp (Nat.div_mul_le_self ..)
  refine ⟨t, ?_, ran, kept, fun hrun => (left hrun).trans Nat.mod_eq_sub_div_mul.symm⟩
  rw [iterate, if_neg (by simp [running]), if_neg (Nat.not_lt.2 forward), if_pos hp]
  simp only [drained]

/-- Settles O49: the instruction drain keeps what the tick drains take their periods from. -/
theorem iterationDrainsAccumulators : Obligations.IterationDrainsAccumulators := by
  intro s now running hp forward
  obtain ⟨t, iterated, -, kept, accI⟩ := iterate_eq_drainTicks running hp forward
  refine ⟨_, iterated, ?_⟩
  cases hrun : t.halted with
  | true =>
    rw [State.drainTicks_of_halted hrun]
    exact ⟨kept.lastTime, kept.loadOpen, by simp [hrun]⟩
  | false =>
    have accT := t.timersDrained_accT
    rw [kept.accT, kept.periodT] at accT
    rw [State.drainTicks_of_running hrun, kept.accT, kept.accR, kept.periodT, kept.periodR]
    exact ⟨kept.lastTime, kept.loadOpen, fun _ => ⟨accI hrun, accT, rfl, rfl⟩⟩

/-- Settles O50: the clock sample, the instruction drain and the tick drains one after the other; a fault in the instruction
drain leaves a machine that the remaining steps do not change. -/
theorem stepsRefineIteration : Obligations.StepsRefineIteration := by
  intro s running hp due
  obtain ⟨t, iterated, ran, kept, accI⟩ :=
    iterate_eq_drainTicks (s := s.drawn) (now := s.clockNow) running hp (Nat.le_add_right ..)
  have idle (hrun : t.halted = false) : t.accI < t.periodI := by
    rw [accI hrun, kept.periodI]
    exact Nat.mod_lt _ (State.periodI_pos hp)
  have ticks := runSteps_eq_drainTicks (kept.params ▸ hp) idle
  rw [kept.accT, kept.accR, kept.periodT, kept.periodR] at ticks
  have steps := (runSteps_succ _ (step_of_beginIterate_due running hp due)).trans ((runSteps_add _ ran).trans ticks)
  refine ⟨_, iterated, ⟨_, steps⟩, fun _ => ?_⟩
  rw [Nat.add_assoc, Nat.add_assoc, Nat.add_comm 1, Nat.add_assoc]
  exact steps

end Sys2Proof.Machine
end

section
/-! PROOF. Faults, reset and the host's port (60_exceptions.md, 70_reset_and_hazards.md, 20_memory.md section 6): an
instruction that faults ends in fault entry and nothing else, a reset leaves the stated values from any state, and the load
port writes memory alone. -/

namespace Sys2Proof.Machine

/-! ## Fault entry, one lemma per condition of R301 -/

theorem exec_ret_of_empty {s : State} (empty : s.sp.val = 0) :
    exec .ret s = .next (s.raise .stackUnderflow 0x00EE 0) := by
  simp only [exec, execRet, State.pop?_of_empty s.advance empty]
  rfl

theorem exec_call_of_full {s : State} (nnn : Word) (full : s.sp.val = 16) :
    exec (.call nnn) s = .next (s.raise .stackOverflow (encode (.call nnn)) 0) := by
  simp only [exec, execCall, State.push?_of_full s.advance _ full]

theorem exec_skp_of_not_key {s : State} {x : Reg} (noKey : 0xF < (s.getV x).toNat) :
    exec (.skp x) s = .next (s.raise .keyIndex (encode (.skp x)) (s.getV x).toNat) :=
  if_pos noKey

theorem exec_sknp_of_not_key {s : State} {x : Reg} (noKey : 0xF < (s.getV x).toNat) :
    exec (.sknp x) s = .next (s.raise .keyIndex (encode (.sknp x)) (s.getV x).toNat) :=
  if_pos noKey

theorem exec_ldBcd_of_outside {s : State} (x : Reg) {a : Nat} (outside : firstOutside s.indirectBase 3 = some a) :
    exec (.ldBcd x) s = .next (s.raise .bcdRange (encode (.ldBcd x)) a) := by
  simp only [exec, execLdBcd, outside]

theorem exec_dump_of_outside {s : State} (x : Reg) {a : Nat}
    (outside : firstOutside s.indirectBase (x.val + 1) = some a) :
    exec (.dump x) s = .next (s.raise .dataRange (encode (.dump x)) a) := by
  simp only [exec, execDump, outside]

theorem exec_load_of_outside {s : State} (x : Reg) {a : Nat}
    (outside : firstOutside s.indirectBase (x.val + 1) = some a) :
    exec (.load x) s = .next (s.raise .dataRange (encode (.load x)) a) := by
  simp only [exec, execLoad, outside]

theorem exec_drw_of_outside {s : State} (x y : Reg) {n : Fin 16} {a : Nat}
    (outside : firstOutside s.indirectBase n.val = some a) :
    exec (.drw x y n) s = .next (s.raise .dataRange (encode (.drw x y n)) a) := by
  simp only [exec, execDrw, outside]

theorem instructionStep_of_outside {s : State} {a : Nat} (outside : firstOutside s.pc.toNat 2 = some a) :
    instructionStep s = .next (s.raise .fetchRange 0 a) := by
  simp only [instructionStep, outside]

/-! ## Reset and the load port (R340, R73) -/

@[simp] theorem State.getV_hostReset (s : State) (p : Params) (now : Nat) (r : Reg) :
    (s.hostReset p now).getV r = 0 := by
  simp [State.hostReset, State.resetWith, State.getV, Vector.get_eq_getElem]

@[simp] theorem State.slot_hostReset (s : State) (p : Params) (now : Nat) (k : Fin 16) :
    (s.hostReset p now).slot k = 0 := by
  simp [State.hostReset, State.resetWith, State.slot, Vector.get_eq_getElem]

@[simp] theorem State.pixel_hostReset (s : State) (p : Params) (now : Nat) (r : Fin 32) (c : Fin 64) :
    (s.hostReset p now).pixel r c = false := by
  simp [State.hostReset, State.resetWith, State.pixel, Vector.get_eq_getElem]

theorem State.byteAt_hostReset_font (s : State) (p : Params) (now : Nat) (k : Fin 80) :
    (s.hostReset p now).byteAt k.val = p.font.get k :=
  dif_pos k.isLt

theorem State.byteAt_hostReset_beyond_font (s : State) (p : Params) (now : Nat) {a : Nat} (beyond : 80 ≤ a) :
    (s.hostReset p now).byteAt a = 0 :=
  dif_neg (Nat.not_lt.2 beyond)

theorem loadByte_of_closed (a : BitVec 12) (v : Byte) {s : State} (closed : s.loadOpen = false) :
    loadByte a v s = .refused .loadPortClosed :=
  if_pos closed

theorem loadByte_below_program {a : BitVec 12} (v : Byte) {s : State} (isOpen : s.loadOpen = true)
    (below : a.toNat < 0x200) : loadByte a v s = .refused .loadOutsideProgram := by
  rw [loadByte, if_neg (by simp [isOpen]), if_pos below]

theorem loadImage_of_too_long {image : List Byte} (s : State) (long : 3584 < image.length) :
    loadImage image s = .refused .imageTooLong :=
  if_pos long

/-- A byte that the load port takes is stored, and that is all. -/
theorem eq_setByte_of_loadByte {s t : State} {a : BitVec 12} {v : Byte} (h : loadByte a v s = .next t) :
    t = s.setByte a.toNat v := by
  unfold loadByte at h
  split_ifs at h
  cases h
  rfl

/-- Every address of the port is inside memory, so its byte is read back. -/
theorem State.byteAt_setByte_port (s : State) (a : BitVec 12) (v : Byte) :
    (s.setByte a.toNat v).byteAt a.toNat = v := by
  rw [State.byteAt_setByte, if_pos ⟨rfl, a.isLt⟩]

end Sys2Proof.Machine

namespace Sys2Proof.Safety

open Sys2Proof.Machine

/-! ## Faults as a whole (R301, R302, R303) -/

/-- Settles O14: the fault record is a piece that only the eight may write. -/
theorem otherInstructionsNeverFault : Obligations.OtherInstructionsNeverFault := by
  intro i s hi
  obtain ⟨t, ht, frame⟩ := exec_changesOnly i s
  exact ⟨t, ht, frame .faultRecord (ne_true_of_eq_false hi)⟩

/-- Settles O13: an instruction that completes keeps `halted`, so a new halt is fault entry. -/
theorem faultEntryIsPrecise : Obligations.FaultEntryIsPrecise := by
  intro i s t h running halted
  obtain ⟨-, code, addr, isFault, rfl⟩ | done := exec_faults_or_completes h
  · exact ⟨isFault, s.faultsWith_raise code (encode i) addr⟩
  · have stillRunning : t.halted = false := done.halted.trans running
    simp [stillRunning] at halted

/-! ## The faults, one by one (R300, R301) -/

/-- Settles O10: the two bytes of the fetch end at 0x1000 or beyond. -/
theorem fetchOutsideMemoryFaults : Obligations.FetchOutsideMemoryFaults := by
  intro s running hp due high
  have outside := firstOutside_eq_some (base := s.pc.toNat) (n := 2) (by decide) (by omega)
  have cycle : step s = s.instructionCycle := schedule_of_step_due running hp due
  exact ⟨_, cycle.trans (instructionStep_of_outside (s := { s with accI := s.accI - s.periodI }) outside),
    State.faultsWith_raise ..⟩

/-- Settles O16: the pop has no entry to answer. -/
theorem returnOnEmptyStackFaults : Obligations.ReturnOnEmptyStackFaults :=
  fun s empty => ⟨_, exec_ret_of_empty empty, s.faultsWith_raise ..⟩

/-- Settles O19: the push has no free slot. -/
theorem callOnFullStackFaults : Obligations.CallOnFullStackFaults :=
  fun s nnn full => ⟨_, exec_call_of_full nnn full, s.faultsWith_raise ..⟩

/-- Settles O39: each run has a byte above 0xFFF, so `firstOutside` names the address of the record. -/
theorem runOutsideMemoryFaults : Obligations.RunOutsideMemoryFaults := by
  intro s x y n
  refine ⟨fun bcd => ?_, fun run => ?_, fun rows sprite => ?_⟩
  · have outside := firstOutside_eq_some (base := s.indirectBase) (n := 3) (by decide) (by omega)
    exact ⟨_, exec_ldBcd_of_outside x outside, s.faultsWith_raise ..⟩
  · have outside := firstOutside_eq_some (base := s.indirectBase) (n := x.val + 1) (by omega) (by omega)
    exact ⟨⟨_, exec_dump_of_outside x outside, s.faultsWith_raise ..⟩,
      ⟨_, exec_load_of_outside x outside, s.faultsWith_raise ..⟩⟩
  · have outside := firstOutside_eq_some (base := s.indirectBase) (n := n.val) (by omega) (by omega)
    exact ⟨_, exec_drw_of_outside x y outside, s.faultsWith_raise ..⟩

/-- Settles O44: the index is tested before the keypad is sampled. -/
theorem keyIndexAboveFFaults : Obligations.KeyIndexAboveFFaults :=
  fun s _ noKey => ⟨⟨_, exec_skp_of_not_key noKey, s.faultsWith_raise ..⟩,
    ⟨_, exec_sknp_of_not_key noKey, s.faultsWith_raise ..⟩⟩

/-- Settles O11: `step` and `Iterate` ask for `halted` before anything else. -/
theorem haltedMachineStays : Obligations.HaltedMachineStays :=
  fun _ _ halted => ⟨step_of_halted halted, if_pos halted⟩

/-! ## The wall clock (R261) -/

/-- Settles O51: only the opening of an iteration writes the clock sample, and it adds to it. -/
theorem clockNeverGoesBack : Obligations.ClockNeverGoesBack := by
  refine ⟨fun s t h => ?_, fun s now running back => ?_⟩
  · obtain ⟨-, rfl⟩ | ⟨-, -, ⟨-, h⟩ | ⟨-, -, rfl⟩ | ⟨-, -, -, rfl⟩ | ⟨-, -, -, rfl⟩⟩ := schedule_cases h
    · exact Nat.le_refl _
    · obtain ⟨u, hu, -, kept⟩ := s.instructionCycle_keepsTicks
      cases hu.symm.trans h
      exact kept.lastTime.ge
    · exact Nat.le_refl _
    · exact Nat.le_refl _
    · exact Nat.le_add_right ..
  · rw [iterate, if_neg (by simp [running]), if_pos back]

/-! ## The host's operations (R340, R73) -/

/-- Settles O7: memory after a reset lists nothing, so each byte is what an unlisted address reads as. -/
theorem resetLeavesStatedValues : Obligations.ResetLeavesStatedValues := by
  intro s p now
  exact ⟨s.getV_hostReset p now, rfl, rfl, rfl, s.slot_hostReset p now, rfl, rfl, s.pixel_hostReset p now,
    s.byteAt_hostReset_font p now, fun _ => s.byteAt_hostReset_beyond_font p now,
    rfl, rfl, rfl, rfl, rfl, rfl, rfl, rfl⟩

theorem WellFormed.setByte {s : State} (hs : WellFormed s) (a : Nat) (v : Byte) : WellFormed (s.setByte a v) := by
  obtain ⟨hmem, hparams, hhalt⟩ := hs
  exact ⟨by simpa using State.setByte_wf hmem a v, by simpa using hparams, by simpa using hhalt⟩

theorem PcInReach.setByte {s : State} (hs : PcInReach s) (a : Nat) (v : Byte) : PcInReach (s.setByte a v) := by
  simpa [PcInReach] using hs

theorem Lockstep.setByte {s : State} (hs : Lockstep s) (a : Nat) (v : Byte) : Lockstep (s.setByte a v) := by
  simpa [Lockstep, State.periodI, State.periodT, State.periodR] using hs

/-- Settles O56: the load port stores one byte, and that keeps each invariant. -/
theorem hostOperationsKeepInvariants : Obligations.HostOperationsKeepInvariants := by
  refine ⟨fun s p now hp => ?_, fun s t a v h => ?_⟩
  · exact ⟨wellFormed_resetWith hp now s.draws, pcInReach_resetWith p now s.draws, lockstep_resetWith p now s.draws⟩
  · cases eq_setByte_of_loadByte h
    exact ⟨fun hs => hs.setByte _ v, fun hs => hs.setByte _ v, fun hs => hs.setByte _ v⟩

/-- A byte stored through the port is a run of one, inside memory, so it changes its own address alone. -/
theorem changesOnly_setByte_port (s : State) (a : BitVec 12) (v : Byte) :
    ChangesOnly s (s.setByte a.toNat v) (· = .byte a.toNat) := by
  have run := s.changesOnly_setBytes (base := a.toNat) (bs := [v]) a.isLt
  refine run.mono fun p ⟨k, hk, hp⟩ => ?_
  obtain rfl : k = 0 := Nat.lt_one_iff.1 hk
  exact hp

/-- Settles O58: the port asks first whether it is open and then for the address. -/
theorem loadPortStoresOrRefuses : Obligations.LoadPortStoresOrRefuses := by
  intro s a v image
  refine ⟨fun isOpen inside => ?_, loadByte_below_program v, loadByte_of_closed a v, loadImage_of_too_long s⟩
  exact ⟨_, loadByte_of_open v isOpen inside, s.byteAt_setByte_port a v, s.setByte_pc .., changesOnly_setByte_port s a v⟩

end Sys2Proof.Safety
end
